-- ==== Sys2Proof/Syntax.lean ====
section
/-! DEFINITION. The instructions and events of the GV740: one constructor per row of the opcode table.

A slot operation (03 R49) carries its 48-bit word's fields in an `Op`; which slot it stands in is the issue
context's matter (R62). An event carries the names of
what it happens to, and none where the state's own lists name it (the oldest message, command, request or log entry).
Events without arguments stand last: Lean's runtime allows at most 245 constructors that hold data. -/

namespace Sys2Proof

/-- The fields of a slot operation below its opcode (R49). -/
structure Op where
  /-- SH, bit 37: the shadow form. -/
  sh : Bool
  /-- PINV, bit 36: the guard is inverted. -/
  pinv : Bool
  /-- PRED, bits 35:32: the guard predicate. -/
  pred : BitVec 4
  /-- DST, bits 31:25: bank code in 31:30, index in 29:25. -/
  dst : BitVec 7
  /-- NW, bit 24: no write-back. -/
  nw : Bool
  /-- SRCA, bits 23:16. -/
  a : BitVec 8
  /-- SRCB, bits 15:8. -/
  b : BitVec 8
  /-- SRCC in the M slot, MOD elsewhere, bits 7:0. -/
  m : BitVec 8
  deriving DecidableEq, Repr, Inhabited

/-- The steps of the part: slot operations and events, one constructor per row of the opcode table. -/
inductive Instr where
  /-- BUNDLE_ISSUE (R140). A core issues the next bundle once its waits clear, and its present slots commit in ascending slot order. -/
  | bundleIssue (k : Nat)
  /-- RESULT_WRITEBACK (R104). A fixed-latency result lands in its destination at c plus its latency. -/
  | resultWriteback (k : Nat)
  /-- MLD_DATA_LAND (R134). Data of an MLD or AMO lands in its destination and clears the pending bit. -/
  | mldDataLand (k j : Nat)
  /-- FP_TRAP (R85). An enabled FP condition raised by a landed result traps FP before the next program bundle. -/
  | fpTrap (k : Nat)
  /-- STEP (R360). An armed core traps STEP, or makes a debug stop, after each whole bundle. -/
  | step (k : Nat)
  /-- CUI (R163). A pending completion interrupt is entered at an IWIN bundle or in an actual wait. -/
  | cui (k : Nat)
  /-- SYNC_RESTART (R154). Eight cycles after the last SYNC vote of the domain every core issues its next bundle. -/
  | syncRestart (d : Nat)
  /-- YIELD_DECISION (R397). At a YIELD restart or when the running domain halts, the site chooses the domain to run. -/
  | yieldDecision (site : Nat)
  /-- LOOP_PASS (R147). At a pass boundary the loop engine shifts the stage predicates, starts an iteration or exits. -/
  | loopPass (k : Nat)
  /-- THROTTLE_BLOCK (R167). A die short of its grant stops a whole domain for a block of 16 cycles. -/
  | throttleBlock (d : Nat)
  /-- PREEMPTION_POINT_STOP (R169). A core with a pending pre-emption stops before an LDEAD bundle or a suspended loop's LOOP bundle. -/
  | preemptionPointStop (k : Nat)
  /-- CONTEXT_SAVE (R399). Once every core has stopped and engines and accesses have drained, the context state is written to the save area. -/
  | contextSave (l : Nat)
  /-- CONTEXT_RESTORE (R399). A pre-empted launch is placed again, its state restored and its domains restarted. -/
  | contextRestore (l : Nat) (ch : List Nat)
  /-- OVERRUN (R398). A domain running past twice its declared run plus 4,096 cycles is pre-empted at its next point and an EVENT sent. -/
  | overrun (d : Nat)
  /-- XENTRY_ARRIVAL (R158). An exchange entry arrives in the inbox at its arrival DCYC, trapping TIMING if 8 entries are held. -/
  | xentryArrival (k : Nat)
  /-- STREAM_FETCH (R217). A load stream generator fetches a pop from AB in its fetch cycle. -/
  | streamFetch (k st : Nat)
  /-- STREAM_STORE_WRITE (R217). A store generator writes the elements of a VST pop in cycle c plus 2. -/
  | streamStoreWrite (k : Nat)
  /-- BANK_WAKE_DONE (R203). A WAKING buffer unit becomes AWAKE exactly 96 cycles after its WAKE. -/
  | bankWakeDone (k : Nat)
  /-- MATRIX_RESULT_VALID (R264). The written tile elements of a matrix operation become valid at c + 14 + kb × cpb. -/
  | matrixResultValid (k : Nat)
  /-- WLD_GRANULE_WRITE (R271). Granule q of a WLD is written at c + 2(q + 1). -/
  | wldGranuleWrite (k : Nat)
  /-- ACCST_DELIVERY (R273). An ACCST writes AB or the lent bank at c + 12. -/
  | accstDelivery (k : Nat)
  /-- STORE_LEAVE (R333). A store-buffer entry moves to the tail of its line queue when ordering rules allow. -/
  | storeLeave (c j : Nat)
  /-- LOAD_SEND (R333). An outstanding load moves to the tail of its line queue when ordering rules allow. -/
  | loadSend (c j : Nat)
  /-- LINE_PERFORM (R332). The head of a line queue is performed and removed. -/
  | linePerform (ln : Nat)
  /-- ENGINE_ACCESS (R333). An engine operation places its next device-memory read or write at a line queue. -/
  | engineAccess (k e j : Nat)
  /-- INGRESS_MOVE (R350). The head request of a source node's ingress FIFO moves to its line queue. -/
  | ingressMove (src j : Nat)
  /-- PAGE_WALK (R230). A page walk ends with a translation or a fault kind. -/
  | pageWalk (j : Nat)
  /-- PAN_IDLE (R234). A group enters IDLE after 100 ns without a request. -/
  | panIdle (g : Nat)
  /-- PAN_RETAIN (R236). A group with HOTCNT 0 enters RETAIN after COLDIDLE or once its queues empty after HOTCNT falls. -/
  | panRetain (g : Nat)
  /-- PAN_WAKE_DONE (R234). A waking group becomes ACTIVE. -/
  | panWakeDone (g : Nat)
  /-- PAN_INIT_DONE (R235). Initialisation of an allocated group ends, INIT clears and HOTCNT is set. -/
  | panInitDone (g : Nat)
  /-- SCRUB_SWEEP (R238). A group with SCRUBOWED that becomes ACTIVE is swept in the background and the bit cleared. -/
  | scrubSweep (g : Nat)
  /-- ORIGIN_RESERVATION_REFILL (R366). The origin-log writer refills a core's index reservation when 8 or fewer remain. -/
  | originReservationRefill (c : Nat)
  /-- SEGMENT_COMMIT (R378). When all segment results have landed and verified, held operations are released and the next segment opens. -/
  | segmentCommit (k : Nat)
  /-- SEGMENT_REWIND (R379). After in-flight results land, the core discards held work, restores logs and the checkpoint, and reruns the segment twice. -/
  | segmentRewind (k : Nat)
  /-- RERUN_COMPARE (R379). At the end of the second rerun the counts and signatures are compared and the segment commits or the core is retired. -/
  | rerunCompare (k : Nat)
  /-- COPY_TRANSFER_START (R242). A copy channel starts its next queued transfer once the previous one has completed. -/
  | copyTransferStart (k e : Nat)
  /-- EXPAND_BUNDLE_WRITE (R249). An EXPAND transfer writes one unpacked bundle into IS. -/
  | expandBundleWrite (k e : Nat)
  /-- COPY_COMPLETE (R251). A transfer completes or ends early, returning regions, advancing XDONE and recording status. -/
  | copyComplete (k e : Nat)
  /-- KEY_STEP (R314). The key engine consumes up to 256 work elements of one port context's operation and moves on round robin. -/
  | keyStep (cl : Nat)
  /-- KEY_OP_COMPLETE (R326). A key-engine operation completes, writing its count, returning regions and advancing XDONE. -/
  | keyOpComplete (k : Nat)
  /-- CIRC_OP_START (R283). The circuit engine starts a queued operation once its start conditions hold. -/
  | circOpStart (k : Nat)
  /-- SECTION_FETCH_DONE (R298). A circuit section fetch into a frame completes and is checked. -/
  | sectionFetchDone (k : Nat)
  /-- CIRCUIT_STEP (R289). The engine issues one circuit step of up to eight nodes, checking each node. -/
  | circuitStep (k : Nat)
  /-- CIRCUIT_GROUP_DONE (R299). A batch group finishes and its status record is written. -/
  | circuitGroupDone (k : Nat)
  /-- CIRC_OP_COMPLETE (R309). A circuit operation completes, returning regions and advancing XDONE. -/
  | circOpComplete (k : Nat)
  /-- LINK_MESSAGE_ARRIVAL (R415). An arriving message matches the oldest posted receive with its node and tag, or waits in the landing buffer. -/
  | linkMessageArrival (die port : Nat)
  /-- LINK_OP_COMPLETE (R415). A link operation completes with its status. -/
  | linkOpComplete (k : Nat)
  /-- LINK_TIMEOUT (R415). A receive without a matching message for LINKTO completes with TIMEOUT. -/
  | linkTimeout (k : Nat)
  /-- PAUSE (R409). A PAUSE flit stops the sender at its next flit boundary. -/
  | pause (die port : Nat)
  /-- RESUME (R409). A RESUME flit lets the sender continue. -/
  | resume (die port : Nat)
  /-- FLIT_REPLAY (R409). A flit with an uncorrectable FEC codeword is dropped and the sender replays from it. -/
  | flitReplay (die port : Nat)
  /-- PORT_DOWN (R409). A port failing to replay within 1 ms or losing lock goes down with FABRIC faults. -/
  | portDown (die port : Nat)
  /-- GANG_PLACEMENT (R393). When room and sync lines exist the front-end places a waiting gang. -/
  | gangPlacement (l : Nat) (ch : List Nat)
  /-- DOMAIN_START (R19). Each domain starts every core at the entry bundle in one cycle with DCYC 0. -/
  | domainStart (d : Nat)
  /-- LAUNCH_END (R20). When every core has halted and every engine operation completed, the launch releases its resources and completes. -/
  | launchEnd (l : Nat)
  /-- PACKET_COMPLETION (R388). A packet completes: its completion word is written, RETIRED advances and an EVENT is sent if asked. -/
  | packetCompletion (q : Nat)
  /-- NOPQ (R387). A NOPQ packet is taken and completes. -/
  | nopq (q : Nat)
  /-- LAUNCH (R392). A LAUNCH packet is taken and checked, then waits for placement. -/
  | launch (q : Nat)
  /-- LOAD (R405). A LOAD packet checks a code object, copies its data and returns a handle. -/
  | load (q : Nat)
  /-- UNLOAD (R406). An UNLOAD packet releases its queue's handle after earlier launches complete. -/
  | unload (q : Nat)
  /-- WAITVAL (R402). A WAITVAL packet reads a word and waits until the condition holds. -/
  | waitval (q : Nat)
  /-- WAITVAL_REREAD (R402). WAITVAL rereads its word within 1 µs after each write to it and completes when the condition holds. -/
  | waitvalReread (q : Nat)
  /-- SIGNAL (R402). A SIGNAL packet writes or adds to a word as one release. -/
  | signal (q : Nat)
  /-- BARRIER (R402). A BARRIER packet waits until the marked queues' RETIRED counts are reached. -/
  | barrier (q : Nat)
  /-- XLATEINV (R402). An XLATEINV packet drops translations from every cache and restarts walks in flight. -/
  | xlateinv (q : Nat)
  /-- PANCTL_ALLOC (R235). PANCTL ALLOC allocates, wakes and zero-initialises the named groups. -/
  | panctlAlloc (q : Nat)
  /-- PANCTL_FREE (R235). PANCTL FREE waits for empty port queues, clears ALLOC and puts the groups into DEEP. -/
  | panctlFree (q : Nat)
  /-- PANCTL_PHASE (R402). PANCTL PHASE writes the context's BWPHASE. -/
  | panctlPhase (q : Nat)
  /-- NOP (R166). Does nothing. -/
  | nop (o : Op)
  /-- BR (R143). Conditional relative or absolute branch. -/
  | br (o : Op)
  /-- JMP (R143). Indirect branch to a register target. -/
  | jmp (o : Op)
  /-- CALL (R144). Pushes the return address and branches. -/
  | call (o : Op)
  /-- CALLR (R144). Pushes the return address and branches to a register target. -/
  | callr (o : Op)
  /-- RET (R144). Pops the return stack and transfers. -/
  | ret (o : Op)
  /-- LOOP (R147). Starts a hardware loop of II bundles and S stages. -/
  | loop (o : Op)
  /-- LBRK (R149). Ends or drains the innermost loop. -/
  | lbrk (o : Op)
  /-- SYNC (R154). Votes on the domain's sync line and waits. -/
  | sync (o : Op)
  /-- YIELD (R155). Waits on the sync line as a yield point, clearing latches. -/
  | yield (o : Op)
  /-- WAITX (R162). Waits until an engine port's XDONE reaches an identifier. -/
  | waitx (o : Op)
  /-- WAITO (R162). Waits until a tensor's regions are owned by CORE. -/
  | waito (o : Op)
  /-- WAITB (R162). Waits until the kernel's bank wakes complete. -/
  | waitb (o : Op)
  /-- FENCE_FULL (R338). Places a full ordering point. -/
  | fenceFull (o : Op)
  /-- FENCE_STORE (R338). Places a store ordering point. -/
  | fenceStore (o : Op)
  /-- FENCE_LOAD (R338). Places a load ordering point. -/
  | fenceLoad (o : Op)
  /-- IFENCE (R146). Clears the stale state of both IS halves. -/
  | ifence (o : Op)
  /-- BSWP (R145). Branches into the other IS half after stale checks. -/
  | bswp (o : Op)
  /-- TRAP (R166). Traps TRAP with the operand. -/
  | trap (o : Op)
  /-- RFT (R357). Returns from a handler to TPC. -/
  | rft (o : Op)
  /-- BRK (R166). Traps BRK or makes a debug stop. -/
  | brk (o : Op)
  /-- HALT (R166). Ends the core's stream. -/
  | halt (o : Op)
  /-- QPOST (R165). Appends a 128-byte AB packet to a hardware queue. -/
  | qpost (o : Op)
  /-- CUIEN_ON (R163). Enables completion interrupts. -/
  | cuienOn (o : Op)
  /-- CUIEN_OFF (R163). Disables completion interrupts. -/
  | cuienOff (o : Op)
  /-- ADD (R116). Integer add. -/
  | add (o : Op)
  /-- SUB (R116). Integer subtract. -/
  | sub (o : Op)
  /-- MUL (R116). Low half of the integer product. -/
  | mul (o : Op)
  /-- MULH (R116). High half of the signed product. -/
  | mulh (o : Op)
  /-- MULHN (R116). High half of the natural product. -/
  | mulhn (o : Op)
  /-- DIV (R116). Signed integer quotient. -/
  | div (o : Op)
  /-- DIVN (R116). Natural integer quotient. -/
  | divn (o : Op)
  /-- REM (R116). Signed remainder. -/
  | rem (o : Op)
  /-- REMN (R116). Natural remainder. -/
  | remn (o : Op)
  /-- AND (R116). Bitwise AND. -/
  | and (o : Op)
  /-- OR (R116). Bitwise OR. -/
  | or (o : Op)
  /-- XOR (R116). Bitwise XOR. -/
  | xor (o : Op)
  /-- ANDN (R116). a AND NOT b. -/
  | andn (o : Op)
  /-- SHL (R116). Logical shift left. -/
  | shl (o : Op)
  /-- SHR (R116). Logical shift right. -/
  | shr (o : Op)
  /-- SAR (R116). Arithmetic shift right. -/
  | sar (o : Op)
  /-- ROT (R116). Rotate left. -/
  | rot (o : Op)
  /-- MIN (R116). Signed minimum. -/
  | min (o : Op)
  /-- MAX (R116). Signed maximum. -/
  | max (o : Op)
  /-- MINN (R116). Natural minimum. -/
  | minn (o : Op)
  /-- MAXN (R116). Natural maximum. -/
  | maxn (o : Op)
  /-- CLZ (R116). Counts leading zeros. -/
  | clz (o : Op)
  /-- POPC (R116). Counts set bits. -/
  | popc (o : Op)
  /-- BEXT (R117). Extracts a bit field. -/
  | bext (o : Op)
  /-- BINS (R117). Inserts a bit field into the destination. -/
  | bins (o : Op)
  /-- SEXT (R117). Sign-extends the low n bits. -/
  | sext (o : Op)
  /-- SEL (R118). Selects an operand by a predicate. -/
  | sel (o : Op)
  /-- MOV (R116). Copies a scalar value. -/
  | mov (o : Op)
  /-- CMP (R119). Integer compare into a predicate. -/
  | cmp (o : Op)
  /-- PLOG (R120). Logical function of two predicates. -/
  | plog (o : Op)
  /-- FADD (R122). Floating-point add. -/
  | fadd (o : Op)
  /-- FSUB (R122). Floating-point subtract. -/
  | fsub (o : Op)
  /-- FMUL (R122). Floating-point multiply. -/
  | fmul (o : Op)
  /-- FFMA (R122). Fused multiply-add. -/
  | ffma (o : Op)
  /-- FFMS (R122). Fused multiply-subtract. -/
  | ffms (o : Op)
  /-- FDIV (R122). Floating-point divide. -/
  | fdiv (o : Op)
  /-- FSQRT (R122). Floating-point square root. -/
  | fsqrt (o : Op)
  /-- FMIN (R123). Floating-point minimum. -/
  | fmin (o : Op)
  /-- FMAX (R123). Floating-point maximum. -/
  | fmax (o : Op)
  /-- FCMP (R123). Floating-point compare into a predicate. -/
  | fcmp (o : Op)
  /-- FCVT (R124). Converts between scalar formats. -/
  | fcvt (o : Op)
  /-- FCLASS (R123). Classifies a floating-point value. -/
  | fclass (o : Op)
  /-- FSGN (R123). Copies b's sign onto a. -/
  | fsgn (o : Op)
  /-- PTEST (R125). Tests a value for poison into a predicate. -/
  | ptest (o : Op)
  /-- PORIG (R125). Returns a poison value's origin. -/
  | porig (o : Op)
  /-- PCHK (R126). Traps PCHK when a value is poison. -/
  | pchk (o : Op)
  /-- PSAN (R127). Replaces a poison value and counts it. -/
  | psan (o : Op)
  /-- CHKEQ (R128). Compares two values and traps on a difference. -/
  | chkeq (o : Op)
  /-- MFS (R129). Reads a system register. -/
  | mfs (o : Op)
  /-- MTS (R129). Writes a system register. -/
  | mts (o : Op)
  /-- MLD (R134). Loads from device memory under a pending bit. -/
  | mld (o : Op)
  /-- MST (R135). Stores to device memory through the store buffer. -/
  | mst (o : Op)
  /-- AMO (R136). Atomic read-modify-write at the pan's port queue. -/
  | amo (o : Op)
  /-- RED (R136). Reduction to device memory without a result. -/
  | red (o : Op)
  /-- VADD (R177). Vector floating-point add. -/
  | vadd (o : Op)
  /-- VSUB (R177). Vector floating-point subtract. -/
  | vsub (o : Op)
  /-- VMUL (R177). Vector floating-point multiply. -/
  | vmul (o : Op)
  /-- VFMA (R177). Vector fused multiply-add. -/
  | vfma (o : Op)
  /-- VFMS (R177). Vector fused multiply-subtract. -/
  | vfms (o : Op)
  /-- VFNMA (R177). Vector fused negated multiply-add. -/
  | vfnma (o : Op)
  /-- VDIV (R177). Vector divide. -/
  | vdiv (o : Op)
  /-- VSQRT (R177). Vector square root. -/
  | vsqrt (o : Op)
  /-- VRCP (R177). Vector reciprocal. -/
  | vrcp (o : Op)
  /-- VRSQ (R177). Vector reciprocal square root. -/
  | vrsq (o : Op)
  /-- VEXP2 (R177). Vector base-2 exponential. -/
  | vexp2 (o : Op)
  /-- VLOG2 (R177). Vector base-2 logarithm. -/
  | vlog2 (o : Op)
  /-- VMIN (R178). Vector floating-point minimum. -/
  | vmin (o : Op)
  /-- VMAX (R178). Vector floating-point maximum. -/
  | vmax (o : Op)
  /-- VSGN (R178). Vector sign copy. -/
  | vsgn (o : Op)
  /-- VCMP (R179). Vector floating-point compare into a mask. -/
  | vcmp (o : Op)
  /-- VSEL (R180). Selects lanes by a mask. -/
  | vsel (o : Op)
  /-- VCLASS (R178). Classifies each lane. -/
  | vclass (o : Op)
  /-- VIADD (R181). Vector integer add. -/
  | viadd (o : Op)
  /-- VISUB (R181). Vector integer subtract. -/
  | visub (o : Op)
  /-- VIMUL (R181). Vector integer multiply. -/
  | vimul (o : Op)
  /-- VAND (R181). Vector bitwise AND. -/
  | vand (o : Op)
  /-- VOR (R181). Vector bitwise OR. -/
  | vor (o : Op)
  /-- VXOR (R181). Vector bitwise XOR. -/
  | vxor (o : Op)
  /-- VSHL (R181). Vector shift left. -/
  | vshl (o : Op)
  /-- VSHR (R181). Vector logical shift right. -/
  | vshr (o : Op)
  /-- VSAR (R181). Vector arithmetic shift right. -/
  | vsar (o : Op)
  /-- VIMIN (R181). Vector integer minimum. -/
  | vimin (o : Op)
  /-- VIMAX (R181). Vector integer maximum. -/
  | vimax (o : Op)
  /-- VICMP (R182). Vector integer compare into a mask. -/
  | vicmp (o : Op)
  /-- VCVT (R183). Vector conversion. -/
  | vcvt (o : Op)
  /-- VQNT (R184). Quantises lanes to a narrow format with a block scale. -/
  | vqnt (o : Op)
  /-- VDQT (R185). Dequantises a narrow block into binary32 lanes. -/
  | vdqt (o : Op)
  /-- VRED (R186). Tree reduction across lanes. -/
  | vred (o : Op)
  /-- VSCAN (R186). Inclusive scan across lanes. -/
  | vscan (o : Op)
  /-- VPERM (R187). Permutes lanes by an index vector. -/
  | vperm (o : Op)
  /-- VBCAST (R188). Broadcasts a scalar into every lane. -/
  | vbcast (o : Op)
  /-- VEXT (R189). Rotates lanes by a scalar index. -/
  | vext (o : Op)
  /-- VINS (R189). Inserts a scalar into one lane. -/
  | vins (o : Op)
  /-- MLOG (R190). Logical function of two masks. -/
  | mlog (o : Op)
  /-- MPOP (R191). Counts set bits of two masks ANDed. -/
  | mpop (o : Op)
  /-- MFIRST (R191). Finds the lowest set bit of two masks ANDed. -/
  | mfirst (o : Op)
  /-- VLD (R192). Pops 256 bytes from a stream. -/
  | vld (o : Op)
  /-- VST (R192). Pushes 256 bytes into a stream. -/
  | vst (o : Op)
  /-- ACCRD (R193). Reads four XS slots into a vector register. -/
  | accrd (o : Op)
  /-- ACCWR (R193). Writes a vector register to four XS slots. -/
  | accwr (o : Op)
  /-- VMOV (R194). Copies vector lanes. -/
  | vmov (o : Op)
  /-- VPTEST (R195). Tests lanes for poison into a mask. -/
  | vptest (o : Op)
  /-- VPCHK (R195). Traps PCHK when a selected lane is poison. -/
  | vpchk (o : Op)
  /-- VPSAN (R195). Replaces poison lanes and counts them. -/
  | vpsan (o : Op)
  /-- MMA (R262). Matrix multiply-accumulate into one or two tiles. -/
  | mma (o : Op)
  /-- MMAG (R268). Gathered and scattered matrix multiply-accumulate. -/
  | mmag (o : Op)
  /-- MCONV (R270). Convolution matrix multiply with window replay. -/
  | mconv (o : Op)
  /-- GSET (R267). Loads the feeder's gather state. -/
  | gset (o : Op)
  /-- CSET (R269). Loads the convolution record into the feeder. -/
  | cset (o : Op)
  /-- WLD (R271). Loads weight blocks from AB into WS. -/
  | wld (o : Op)
  /-- ACCZ (R272). Zeroes an accumulator tile. -/
  | accz (o : Op)
  /-- ACCST (R273). Converts and stores tile elements into AB or a lent bank. -/
  | accst (o : Op)
  /-- ACCLD (R275). Loads an AB tensor into a tile. -/
  | accld (o : Op)
  /-- LEND (R265). Lends a vector bank to the M slot. -/
  | lend (o : Op)
  /-- LEND_RET (R265). Returns a lent vector bank. -/
  | lendRet (o : Op)
  /-- MWAIT (R278). Holds the next bundle until every scoreboard mark clears. -/
  | mwait (o : Op)
  /-- EWR (R243). Writes an engine shadow register. -/
  | ewr (o : Op)
  /-- ERD (R243). Reads an engine status index. -/
  | erd (o : Op)
  /-- EGO_COPY (R245). Starts a copy-channel transfer. -/
  | egoCopy (o : Op)
  /-- EGO_MERGE (R320). Posts a key-engine MERGE. -/
  | egoMerge (o : Op)
  /-- EGO_INTER (R320). Posts a key-engine INTER. -/
  | egoInter (o : Op)
  /-- EGO_EXPAND (R321). Posts a key-engine EXPAND of a CSR tensor. -/
  | egoExpand (o : Op)
  /-- EGO_HIST (R322). Posts a key-engine HIST. -/
  | egoHist (o : Op)
  /-- EGO_PSUM (R322). Posts a key-engine PSUM. -/
  | egoPsum (o : Op)
  /-- EGO_HBUILD (R323). Posts a hash-table build. -/
  | egoHbuild (o : Op)
  /-- EGO_HPROBE (R323). Posts a hash-table probe. -/
  | egoHprobe (o : Op)
  /-- EGO_RULES (R324). Posts a RULES operation for sparse convolution. -/
  | egoRules (o : Op)
  /-- EGO_NNZ (R325). Posts an NNZ bitmap operation. -/
  | egoNnz (o : Op)
  /-- EGO_CLOAD (R304). Posts a circuit-object load. -/
  | egoCload (o : Op)
  /-- EGO_EVAL (R305). Posts a circuit evaluation. -/
  | egoEval (o : Op)
  /-- EGO_PUPD (R306). Posts a parameter update. -/
  | egoPupd (o : Op)
  /-- EGO_PFLIP (R307). Posts a parameter-side flip. -/
  | egoPflip (o : Op)
  /-- EGO_CSTAT (R308). Posts a circuit summary write. -/
  | egoCstat (o : Op)
  /-- EGO_LSEND (R415). Posts a link send, stream or put. -/
  | egoLsend (o : Op)
  /-- EGO_LRECV (R415). Posts a link receive. -/
  | egoLrecv (o : Op)
  /-- EGO_LRADD (R415). Posts a link receive-and-add. -/
  | egoLradd (o : Op)
  /-- OWN_GIVE (R225). Hands a tensor's regions to an engine. -/
  | ownGive (o : Op)
  /-- OWN_TAKE (R225). Takes a tensor's regions back from an engine. -/
  | ownTake (o : Op)
  /-- XSEND (R156). Sends a vector register to a core's exchange inbox. -/
  | xsend (o : Op)
  /-- XRECV (R157). Takes an arrived inbox entry into AB or XS. -/
  | xrecv (o : Op)
  /-- TDEF (R220). Writes a tensor identifier table entry. -/
  | tdef (o : Op)
  /-- TRD (R221). Reads a word of a tensor entry. -/
  | trd (o : Op)
  /-- FMTSET (R222). Writes a format register. -/
  | fmtset (o : Op)
  /-- SPAT (R223). Loads a stream generator with a pattern. -/
  | spat (o : Op)
  /-- SRST (R224). Restarts a stream generator. -/
  | srst (o : Op)
  /-- SRST_CLR (R224). Empties a stream generator. -/
  | srstClr (o : Op)
  /-- BWPH (R240). Writes the context's BWPHASE and sends it to the hub. -/
  | bwph (o : Op)
  /-- BPWR_RETAIN (R226). Puts buffer units into retention. -/
  | bpwrRetain (o : Op)
  /-- BPWR_WAKE (R226). Starts waking retained buffer units. -/
  | bpwrWake (o : Op)
  /-- BUFFER_WRITE_TAKES_EFFECT (R275). A delayed buffer write lands: ACCLD writes its tile at c + 12, ACCZ at c + 2, and ACCWR and XRECV write XS or AB at the end of c + 1. -/
  | bufferWriteTakesEffect (k : Nat)
  /-- ARBITER_GRANT (R416). Every 5 µs the power arbiter grants core-rail current to each die within the budget. -/
  | arbiterGrant
  /-- HARD_STOP (R168). At the named TIME issue stops on every core and engine of the affected set. -/
  | hardStop
  /-- PREEMPTION_REQUEST (R169). At the named TIME active loops set DRAIN and each core runs to its next pre-emption point. -/
  | preemptionRequest
  /-- FULL_PREEMPTION (R399). The hub pre-empts a launch after a higher-ranked LAUNCH has waited, or under R384 or a host request. -/
  | fullPreemption
  /-- PATROL_SCRUB (R371). The patrol scrubber sweeps ACTIVE and IDLE groups once per interval. -/
  | patrolScrub
  /-- ORIGIN_ENTRY_FILL (R367). The writer fills an origin-log entry within 10 µs of its NewOrigin. -/
  | originEntryFill
  /-- HUB_BWPHASE_APPLY (R241). The hub applies a BWPHASE write: adjusts HOTCNT, starts wakes and applies RETAIN rules. -/
  | hubBwphaseApply
  /-- UNCONTAINED_FAULT (R382). The hub hard-stops the context, writes the fault record, discards its work and stops its queues. -/
  | uncontainedFault
  /-- QAPPEND (R411). A fabric QAPPEND appends a packet to a queue's FIFO or spill ring, or is refused. -/
  | qappend
  /-- CFGRD (R411). A CFGRD message reads a CFG register and returns RESP. -/
  | cfgrd
  /-- CFGWR (R411). A CFGWR to a register without behaviour of its own writes it and returns RESP. -/
  | cfgwr
  /-- MEMRD (R411). A host MEMRD reads device memory and returns the data, poisoned for an uncorrectable sector. -/
  | memrd
  /-- MEMWR (R411). A host MEMWR writes device memory, marking sectors when POISON is set. -/
  | memwr
  /-- FABRIC_PANCTL (R411). A fabric PANCTL message applies a PANCTL body at once and responds after completion. -/
  | fabricPanctl
  /-- CTXCTL_WRITE (R412). A CTXCTL write enables or configures a context, resetting its log header and BWPHASE on EN. -/
  | ctxctlWrite
  /-- FAULTCTL_RESUME (R232). FAULTCTL RESUME releases the named requester's held requests. -/
  | faultctlResume
  /-- FAULTCTL_END (R232). FAULTCTL END ends the named requester's fault, an uncontained fault except for a queue completion word. -/
  | faultctlEnd
  /-- QCTL_BIND (R412). QCTL BIND binds an unbound queue to a context with a rank. -/
  | qctlBind
  /-- QCTL_START (R412). QCTL START moves a queue from STOPPED to RUNNING. -/
  | qctlStart
  /-- QCTL_HOLD (R412). QCTL HOLD makes a queue HELD. -/
  | qctlHold
  /-- QCTL_RELEASE (R412). QCTL RELEASE lets a held queue take packets again. -/
  | qctlRelease
  /-- QCTL_UNBIND (R412). QCTL UNBIND unbinds an empty queue. -/
  | qctlUnbind
  /-- PWRCTL_WRITE (R416). A PWRCTL write sets the package power limit. -/
  | pwrctlWrite
  /-- ATTCTL_START (R418). A write of START takes the nonce and measurements and begins building a signed report. -/
  | attctlStart
  /-- ATTESTATION_REPORT_DONE (R418). The attestation report is complete and READY or FAIL is set. -/
  | attestationReportDone
  /-- KEMCT_WRITE (R420). A word of the ML-KEM ciphertext is written into the key window. -/
  | kemctWrite
  /-- KEYCTL_INSTALL (R420). INSTALL decapsulates the ciphertext and installs the context's keys. -/
  | keyctlInstall
  /-- KEYCTL_ERASE (R420). ERASE zeroes the context's keys and KEYID. -/
  | keyctlErase
  /-- NODEID_WRITE (R421). Management writes NODEID over I3C. -/
  | nodeidWrite
  /-- MGMT_STATUS_READ (R421). Management reads power, temperature and error counts over I3C. -/
  | mgmtStatusRead
  /-- DEBUG_CLAIM (R421). Management claims debug and breakpoints over I3C. -/
  | debugClaim
  /-- SINGLE_STEP_ARM (R360). Management arms single step for a core. -/
  | singleStepArm
  /-- HARD_STOP_REQUEST (R421). Management names a hard stop at a TIME value. -/
  | hardStopRequest
  /-- MGMT_PARAMETER_SET (R421). Management sets COLDIDLE, the scrub interval, the pre-emption wait or LINKTO. -/
  | mgmtParameterSet
  /-- RESET_RELEASE (R421). Release of reset starts bring-up: firmware verification, HBM training, link training and TIME synchronisation. -/
  | resetRelease
  /-- LINK_TRAINING_DONE (R421). The link engines finish training the die-to-die links and fabric ports, after which the hub synchronises TIME and sends EVENT 0x05. -/
  | linkTrainingDone
  /-- CORE_RETURNED_TO_SERVICE (R384). Management, having tested a retired core, returns it to service so that its cluster again takes gangs. -/
  | coreReturnedToService
  /-- BOUNDARY_SCAN_ACCESS (R421). An access on the IEEE 1149.1 port runs boundary scan or the manufacturer's memory tests, allowed only while no context is enabled. -/
  | boundaryScanAccess
  deriving DecidableEq, Repr, Inhabited

end Sys2Proof
end

