-- ==== Sys2Proof/WellFormed.lean ====
section
/-! DEFINITION. The encoding checks of a slot operation: check 2 of R64 as far as the word and the bundle's
header decide it (03 R50-R55, R69, and the field limits of each instruction description).

What depends on the machine's state (allotments, tensors, an engine's queue) is checked where the instruction
runs. The table of forms, `Instr.form`, is written from 03 R65-R69 and the encoding tables of the chapters. -/

namespace Sys2Proof

/-- The opcode class of a slot position (R62). -/
inductive SlotClass where
  /-- Position 0. -/
  | c
  /-- Positions 1 and 2. -/
  | s
  /-- Positions 3 and 4. -/
  | v
  /-- Position 5. -/
  | m
  /-- Position 6. -/
  | e
  deriving DecidableEq, Repr, Inhabited

/-- The class of slot position `pos` (R62). -/
def SlotClass.ofPos (pos : Nat) : SlotClass :=
  match pos with
  | 0 => .c
  | 1 => .s
  | 2 => .s
  | 3 => .v
  | 4 => .v
  | 5 => .m
  | _ => .e

/-- What an instruction's DST field names (R52). -/
inductive DestKind where
  /-- No destination: DST = 0 and NW = 0 (R53). -/
  | none
  /-- A scalar register of the slot's bank. -/
  | sreg
  /-- A predicate. -/
  | pred
  /-- A vector register of one of the slot's banks. -/
  | vreg
  /-- A mask. -/
  | mask
  /-- A register of either scalar bank, delivered by the E slot. -/
  | ereg
  /-- An accumulator tile in bits 31:24 (R49). -/
  | tile
  /-- An M-slot operation that names no tile: bits 31:24 are 0 (R258). -/
  | noTile
  deriving DecidableEq, Repr, Inhabited

/-- What a source byte is (R53-R55). -/
inductive SrcKind where
  /-- Not used: 0x00. -/
  | unused
  /-- A scalar source selector. -/
  | scalar
  /-- A vector source selector. -/
  | vector
  /-- PLOG's predicate field: p0-p15 or k0-k7 (R120). -/
  | predField
  /-- A mask field 0x00-0x07 (R190). -/
  | maskField
  /-- A stream field 0x00-0x07 (R192). -/
  | streamField
  /-- LEND's bank field (R259). -/
  | bankField
  /-- XSEND's and XRECV's coordinate: a scalar with ADDR 0, else 0x00 (R156). -/
  | coord
  /-- A field whose limits the modifier check gives. -/
  | field
  /-- The byte is the modifier MOD, no source. -/
  | modifier
  deriving DecidableEq, Repr, Inhabited

/-- The modifier checks of the encoding groups (R53 and the instruction descriptions). -/
inductive ModKind where
  | zero | any | bit0 | low2 | low3 | low4 | low5
  | engine | fence | len | icmp | plog | fp | fcmp | rm | sysreg | mld | mst | amo | red
  | vfp | vw | vmask | vcmp | vicmp | vimm | vcvt | vqnt | vred | vptype
  | ewr | egoCopy | egoKey | egoCirc | egoLink | own | xsend | xrecv | srst
  deriving DecidableEq, Repr, Inhabited

/-- The form of a slot operation: its class, its opcode and what its fields are. -/
structure Form where
  cls : SlotClass
  opc : Nat
  dest : DestKind
  a : SrcKind
  b : SrcKind
  c : SrcKind
  mod : ModKind
  /-- SH = 1 is legal (R51). -/
  shadow : Bool
  /-- The destination-read form (R53). -/
  dread : Bool
  /-- The operation must be unguarded (R141). -/
  unguarded : Bool
  /-- The opcode is legal in slot 2 only (R63). -/
  s1only : Bool
  deriving DecidableEq, Repr, Inhabited

/-- The operand record of a slot operation; none for an event. -/
def Instr.op? : Instr → Option Op
  | .nop o => some o
  | .br o => some o
  | .jmp o => some o
  | .call o => some o
  | .callr o => some o
  | .ret o => some o
  | .loop o => some o
  | .lbrk o => some o
  | .sync o => some o
  | .yield o => some o
  | .waitx o => some o
  | .waito o => some o
  | .waitb o => some o
  | .fenceFull o => some o
  | .fenceStore o => some o
  | .fenceLoad o => some o
  | .ifence o => some o
  | .bswp o => some o
  | .trap o => some o
  | .rft o => some o
  | .brk o => some o
  | .halt o => some o
  | .qpost o => some o
  | .cuienOn o => some o
  | .cuienOff o => some o
  | .add o => some o
  | .sub o => some o
  | .mul o => some o
  | .mulh o => some o
  | .mulhn o => some o
  | .div o => some o
  | .divn o => some o
  | .rem o => some o
  | .remn o => some o
  | .and o => some o
  | .or o => some o
  | .xor o => some o
  | .andn o => some o
  | .shl o => some o
  | .shr o => some o
  | .sar o => some o
  | .rot o => some o
  | .min o => some o
  | .max o => some o
  | .minn o => some o
  | .maxn o => some o
  | .clz o => some o
  | .popc o => some o
  | .bext o => some o
  | .bins o => some o
  | .sext o => some o
  | .sel o => some o
  | .mov o => some o
  | .cmp o => some o
  | .plog o => some o
  | .fadd o => some o
  | .fsub o => some o
  | .fmul o => some o
  | .ffma o => some o
  | .ffms o => some o
  | .fdiv o => some o
  | .fsqrt o => some o
  | .fmin o => some o
  | .fmax o => some o
  | .fcmp o => some o
  | .fcvt o => some o
  | .fclass o => some o
  | .fsgn o => some o
  | .ptest o => some o
  | .porig o => some o
  | .pchk o => some o
  | .psan o => some o
  | .chkeq o => some o
  | .mfs o => some o
  | .mts o => some o
  | .mld o => some o
  | .mst o => some o
  | .amo o => some o
  | .red o => some o
  | .vadd o => some o
  | .vsub o => some o
  | .vmul o => some o
  | .vfma o => some o
  | .vfms o => some o
  | .vfnma o => some o
  | .vdiv o => some o
  | .vsqrt o => some o
  | .vrcp o => some o
  | .vrsq o => some o
  | .vexp2 o => some o
  | .vlog2 o => some o
  | .vmin o => some o
  | .vmax o => some o
  | .vsgn o => some o
  | .vcmp o => some o
  | .vsel o => some o
  | .vclass o => some o
  | .viadd o => some o
  | .visub o => some o
  | .vimul o => some o
  | .vand o => some o
  | .vor o => some o
  | .vxor o => some o
  | .vshl o => some o
  | .vshr o => some o
  | .vsar o => some o
  | .vimin o => some o
  | .vimax o => some o
  | .vicmp o => some o
  | .vcvt o => some o
  | .vqnt o => some o
  | .vdqt o => some o
  | .vred o => some o
  | .vscan o => some o
  | .vperm o => some o
  | .vbcast o => some o
  | .vext o => some o
  | .vins o => some o
  | .mlog o => some o
  | .mpop o => some o
  | .mfirst o => some o
  | .vld o => some o
  | .vst o => some o
  | .accrd o => some o
  | .accwr o => some o
  | .vmov o => some o
  | .vptest o => some o
  | .vpchk o => some o
  | .vpsan o => some o
  | .mma o => some o
  | .mmag o => some o
  | .mconv o => some o
  | .gset o => some o
  | .cset o => some o
  | .wld o => some o
  | .accz o => some o
  | .accst o => some o
  | .accld o => some o
  | .lend o => some o
  | .lendRet o => some o
  | .mwait o => some o
  | .ewr o => some o
  | .erd o => some o
  | .egoCopy o => some o
  | .egoMerge o => some o
  | .egoInter o => some o
  | .egoExpand o => some o
  | .egoHist o => some o
  | .egoPsum o => some o
  | .egoHbuild o => some o
  | .egoHprobe o => some o
  | .egoRules o => some o
  | .egoNnz o => some o
  | .egoCload o => some o
  | .egoEval o => some o
  | .egoPupd o => some o
  | .egoPflip o => some o
  | .egoCstat o => some o
  | .egoLsend o => some o
  | .egoLrecv o => some o
  | .egoLradd o => some o
  | .ownGive o => some o
  | .ownTake o => some o
  | .xsend o => some o
  | .xrecv o => some o
  | .tdef o => some o
  | .trd o => some o
  | .fmtset o => some o
  | .spat o => some o
  | .srst o => some o
  | .srstClr o => some o
  | .bwph o => some o
  | .bpwrRetain o => some o
  | .bpwrWake o => some o
  | .bundleIssue _ => none
  | .resultWriteback _ => none
  | .mldDataLand _ _ => none
  | .fpTrap _ => none
  | .step _ => none
  | .cui _ => none
  | .syncRestart _ => none
  | .yieldDecision _ => none
  | .loopPass _ => none
  | .arbiterGrant => none
  | .throttleBlock _ => none
  | .hardStop => none
  | .preemptionRequest => none
  | .preemptionPointStop _ => none
  | .fullPreemption => none
  | .contextSave _ => none
  | .contextRestore _ _ => none
  | .overrun _ => none
  | .xentryArrival _ => none
  | .streamFetch _ _ => none
  | .streamStoreWrite _ => none
  | .bankWakeDone _ => none
  | .matrixResultValid _ => none
  | .wldGranuleWrite _ => none
  | .accstDelivery _ => none
  | .storeLeave _ _ => none
  | .loadSend _ _ => none
  | .linePerform _ => none
  | .engineAccess _ _ _ => none
  | .ingressMove _ _ => none
  | .pageWalk _ => none
  | .panIdle _ => none
  | .panRetain _ => none
  | .panWakeDone _ => none
  | .panInitDone _ => none
  | .patrolScrub => none
  | .scrubSweep _ => none
  | .originReservationRefill _ => none
  | .originEntryFill => none
  | .hubBwphaseApply => none
  | .segmentCommit _ => none
  | .segmentRewind _ => none
  | .rerunCompare _ => none
  | .uncontainedFault => none
  | .copyTransferStart _ _ => none
  | .expandBundleWrite _ _ => none
  | .copyComplete _ _ => none
  | .keyStep _ => none
  | .keyOpComplete _ => none
  | .circOpStart _ => none
  | .sectionFetchDone _ => none
  | .circuitStep _ => none
  | .circuitGroupDone _ => none
  | .circOpComplete _ => none
  | .linkMessageArrival _ _ => none
  | .linkOpComplete _ => none
  | .linkTimeout _ => none
  | .pause _ _ => none
  | .resume _ _ => none
  | .flitReplay _ _ => none
  | .portDown _ _ => none
  | .gangPlacement _ _ => none
  | .domainStart _ => none
  | .launchEnd _ => none
  | .packetCompletion _ => none
  | .nopq _ => none
  | .launch _ => none
  | .load _ => none
  | .unload _ => none
  | .waitval _ => none
  | .waitvalReread _ => none
  | .signal _ => none
  | .barrier _ => none
  | .xlateinv _ => none
  | .panctlAlloc _ => none
  | .panctlFree _ => none
  | .panctlPhase _ => none
  | .qappend => none
  | .cfgrd => none
  | .cfgwr => none
  | .memrd => none
  | .memwr => none
  | .fabricPanctl => none
  | .ctxctlWrite => none
  | .faultctlResume => none
  | .faultctlEnd => none
  | .qctlBind => none
  | .qctlStart => none
  | .qctlHold => none
  | .qctlRelease => none
  | .qctlUnbind => none
  | .pwrctlWrite => none
  | .attctlStart => none
  | .attestationReportDone => none
  | .kemctWrite => none
  | .keyctlInstall => none
  | .keyctlErase => none
  | .nodeidWrite => none
  | .mgmtStatusRead => none
  | .debugClaim => none
  | .singleStepArm => none
  | .hardStopRequest => none
  | .mgmtParameterSet => none
  | .resetRelease => none
  | .bufferWriteTakesEffect _ => none
  | .linkTrainingDone => none
  | .coreReturnedToService => none
  | .boundaryScanAccess => none

/-- The form of each slot operation (R65-R69 and the encoding tables of its chapter); none for an event. -/
def Instr.form : Instr → Option Form
  | .nop _ => some ⟨.c, 0x000, .none, .unused, .unused, .modifier, .zero, false, false, false, false⟩
  | .br _ => some ⟨.c, 0x001, .none, .scalar, .unused, .modifier, .bit0, false, false, false, false⟩
  | .jmp _ => some ⟨.c, 0x002, .none, .scalar, .unused, .modifier, .zero, false, false, false, false⟩
  | .call _ => some ⟨.c, 0x003, .none, .scalar, .unused, .modifier, .bit0, false, false, false, false⟩
  | .callr _ => some ⟨.c, 0x004, .none, .scalar, .unused, .modifier, .zero, false, false, false, false⟩
  | .ret _ => some ⟨.c, 0x005, .none, .unused, .unused, .modifier, .zero, false, false, false, false⟩
  | .loop _ => some ⟨.c, 0x010, .none, .scalar, .scalar, .modifier, .low3, false, false, true, false⟩
  | .lbrk _ => some ⟨.c, 0x011, .none, .unused, .unused, .modifier, .bit0, false, false, false, false⟩
  | .sync _ => some ⟨.c, 0x020, .none, .unused, .unused, .modifier, .zero, false, false, true, false⟩
  | .yield _ => some ⟨.c, 0x021, .none, .scalar, .unused, .modifier, .zero, false, false, true, false⟩
  | .waitx _ => some ⟨.c, 0x022, .none, .scalar, .unused, .modifier, .engine, false, false, false, false⟩
  | .waito _ => some ⟨.c, 0x023, .none, .unused, .unused, .modifier, .any, false, false, false, false⟩
  | .waitb _ => some ⟨.c, 0x024, .none, .unused, .unused, .modifier, .zero, false, false, false, false⟩
  | .fenceFull _ => some ⟨.c, 0x025, .none, .unused, .unused, .modifier, .fence, false, false, false, false⟩
  | .fenceStore _ => some ⟨.c, 0x025, .none, .unused, .unused, .modifier, .fence, false, false, false, false⟩
  | .fenceLoad _ => some ⟨.c, 0x025, .none, .unused, .unused, .modifier, .fence, false, false, false, false⟩
  | .ifence _ => some ⟨.c, 0x026, .none, .unused, .unused, .modifier, .zero, false, false, true, false⟩
  | .bswp _ => some ⟨.c, 0x027, .none, .scalar, .unused, .modifier, .bit0, false, false, false, false⟩
  | .trap _ => some ⟨.c, 0x030, .none, .scalar, .unused, .modifier, .zero, false, false, false, false⟩
  | .rft _ => some ⟨.c, 0x031, .none, .unused, .unused, .modifier, .zero, false, false, true, false⟩
  | .brk _ => some ⟨.c, 0x032, .none, .scalar, .unused, .modifier, .zero, false, false, false, false⟩
  | .halt _ => some ⟨.c, 0x033, .none, .unused, .unused, .modifier, .zero, false, false, true, false⟩
  | .qpost _ => some ⟨.c, 0x034, .none, .scalar, .scalar, .modifier, .zero, false, false, false, false⟩
  | .cuienOn _ => some ⟨.c, 0x035, .none, .unused, .unused, .modifier, .bit0, false, false, true, false⟩
  | .cuienOff _ => some ⟨.c, 0x035, .none, .unused, .unused, .modifier, .bit0, false, false, true, false⟩
  | .add _ => some ⟨.s, 0x000, .sreg, .scalar, .scalar, .modifier, .bit0, true, false, false, false⟩
  | .sub _ => some ⟨.s, 0x001, .sreg, .scalar, .scalar, .modifier, .bit0, true, false, false, false⟩
  | .mul _ => some ⟨.s, 0x002, .sreg, .scalar, .scalar, .modifier, .bit0, true, false, false, false⟩
  | .mulh _ => some ⟨.s, 0x003, .sreg, .scalar, .scalar, .modifier, .bit0, true, false, false, false⟩
  | .mulhn _ => some ⟨.s, 0x004, .sreg, .scalar, .scalar, .modifier, .bit0, true, false, false, false⟩
  | .div _ => some ⟨.s, 0x005, .sreg, .scalar, .scalar, .modifier, .bit0, true, false, false, false⟩
  | .divn _ => some ⟨.s, 0x006, .sreg, .scalar, .scalar, .modifier, .bit0, true, false, false, false⟩
  | .rem _ => some ⟨.s, 0x007, .sreg, .scalar, .scalar, .modifier, .bit0, true, false, false, false⟩
  | .remn _ => some ⟨.s, 0x008, .sreg, .scalar, .scalar, .modifier, .bit0, true, false, false, false⟩
  | .and _ => some ⟨.s, 0x009, .sreg, .scalar, .scalar, .modifier, .bit0, true, false, false, false⟩
  | .or _ => some ⟨.s, 0x00A, .sreg, .scalar, .scalar, .modifier, .bit0, true, false, false, false⟩
  | .xor _ => some ⟨.s, 0x00B, .sreg, .scalar, .scalar, .modifier, .bit0, true, false, false, false⟩
  | .andn _ => some ⟨.s, 0x00C, .sreg, .scalar, .scalar, .modifier, .bit0, true, false, false, false⟩
  | .shl _ => some ⟨.s, 0x00D, .sreg, .scalar, .scalar, .modifier, .bit0, true, false, false, false⟩
  | .shr _ => some ⟨.s, 0x00E, .sreg, .scalar, .scalar, .modifier, .bit0, true, false, false, false⟩
  | .sar _ => some ⟨.s, 0x00F, .sreg, .scalar, .scalar, .modifier, .bit0, true, false, false, false⟩
  | .rot _ => some ⟨.s, 0x010, .sreg, .scalar, .scalar, .modifier, .bit0, true, false, false, false⟩
  | .min _ => some ⟨.s, 0x011, .sreg, .scalar, .scalar, .modifier, .bit0, true, false, false, false⟩
  | .max _ => some ⟨.s, 0x012, .sreg, .scalar, .scalar, .modifier, .bit0, true, false, false, false⟩
  | .minn _ => some ⟨.s, 0x013, .sreg, .scalar, .scalar, .modifier, .bit0, true, false, false, false⟩
  | .maxn _ => some ⟨.s, 0x014, .sreg, .scalar, .scalar, .modifier, .bit0, true, false, false, false⟩
  | .clz _ => some ⟨.s, 0x015, .sreg, .scalar, .unused, .modifier, .bit0, true, false, false, false⟩
  | .popc _ => some ⟨.s, 0x016, .sreg, .scalar, .unused, .modifier, .bit0, true, false, false, false⟩
  | .bext _ => some ⟨.s, 0x017, .sreg, .scalar, .scalar, .modifier, .len, true, false, false, false⟩
  | .bins _ => some ⟨.s, 0x018, .sreg, .scalar, .scalar, .modifier, .len, true, true, false, false⟩
  | .sext _ => some ⟨.s, 0x01D, .sreg, .scalar, .unused, .modifier, .len, true, false, false, false⟩
  | .sel _ => some ⟨.s, 0x019, .sreg, .scalar, .scalar, .modifier, .low5, true, false, false, false⟩
  | .mov _ => some ⟨.s, 0x01A, .sreg, .scalar, .unused, .modifier, .bit0, true, false, false, false⟩
  | .cmp _ => some ⟨.s, 0x01B, .pred, .scalar, .scalar, .modifier, .icmp, true, false, false, false⟩
  | .plog _ => some ⟨.s, 0x01C, .pred, .predField, .predField, .modifier, .plog, true, false, false, false⟩
  | .fadd _ => some ⟨.s, 0x040, .sreg, .scalar, .scalar, .modifier, .fp, true, false, false, false⟩
  | .fsub _ => some ⟨.s, 0x041, .sreg, .scalar, .scalar, .modifier, .fp, true, false, false, false⟩
  | .fmul _ => some ⟨.s, 0x042, .sreg, .scalar, .scalar, .modifier, .fp, true, false, false, false⟩
  | .ffma _ => some ⟨.s, 0x043, .sreg, .scalar, .scalar, .modifier, .fp, true, true, false, false⟩
  | .ffms _ => some ⟨.s, 0x044, .sreg, .scalar, .scalar, .modifier, .fp, true, true, false, false⟩
  | .fdiv _ => some ⟨.s, 0x045, .sreg, .scalar, .scalar, .modifier, .fp, true, false, false, false⟩
  | .fsqrt _ => some ⟨.s, 0x046, .sreg, .scalar, .unused, .modifier, .fp, true, false, false, false⟩
  | .fmin _ => some ⟨.s, 0x047, .sreg, .scalar, .scalar, .modifier, .bit0, true, false, false, false⟩
  | .fmax _ => some ⟨.s, 0x048, .sreg, .scalar, .scalar, .modifier, .bit0, true, false, false, false⟩
  | .fcmp _ => some ⟨.s, 0x049, .pred, .scalar, .scalar, .modifier, .fcmp, true, false, false, false⟩
  | .fcvt _ => some ⟨.s, 0x04A, .sreg, .scalar, .unused, .modifier, .rm, true, false, false, false⟩
  | .fclass _ => some ⟨.s, 0x04B, .sreg, .scalar, .unused, .modifier, .bit0, true, false, false, false⟩
  | .fsgn _ => some ⟨.s, 0x04C, .sreg, .scalar, .scalar, .modifier, .bit0, true, false, false, false⟩
  | .ptest _ => some ⟨.s, 0x060, .pred, .scalar, .unused, .modifier, .low2, false, false, false, false⟩
  | .porig _ => some ⟨.s, 0x061, .sreg, .scalar, .unused, .modifier, .low2, false, false, false, false⟩
  | .pchk _ => some ⟨.s, 0x062, .none, .scalar, .unused, .modifier, .low2, false, false, false, false⟩
  | .psan _ => some ⟨.s, 0x063, .sreg, .scalar, .scalar, .modifier, .low2, false, false, false, false⟩
  | .chkeq _ => some ⟨.s, 0x064, .none, .scalar, .scalar, .modifier, .bit0, false, false, false, false⟩
  | .mfs _ => some ⟨.s, 0x080, .sreg, .unused, .unused, .modifier, .sysreg, false, false, false, true⟩
  | .mts _ => some ⟨.s, 0x081, .none, .scalar, .unused, .modifier, .sysreg, false, false, false, true⟩
  | .mld _ => some ⟨.s, 0x082, .sreg, .scalar, .scalar, .modifier, .mld, false, false, false, true⟩
  | .mst _ => some ⟨.s, 0x083, .none, .scalar, .scalar, .modifier, .mst, false, false, false, true⟩
  | .amo _ => some ⟨.s, 0x084, .sreg, .scalar, .scalar, .modifier, .amo, false, true, false, true⟩
  | .red _ => some ⟨.s, 0x085, .none, .scalar, .scalar, .modifier, .red, false, false, false, true⟩
  | .vadd _ => some ⟨.v, 0x000, .vreg, .vector, .vector, .modifier, .vfp, true, false, false, false⟩
  | .vsub _ => some ⟨.v, 0x001, .vreg, .vector, .vector, .modifier, .vfp, true, false, false, false⟩
  | .vmul _ => some ⟨.v, 0x002, .vreg, .vector, .vector, .modifier, .vfp, true, false, false, false⟩
  | .vfma _ => some ⟨.v, 0x003, .vreg, .vector, .vector, .modifier, .vfp, true, true, false, false⟩
  | .vfms _ => some ⟨.v, 0x004, .vreg, .vector, .vector, .modifier, .vfp, true, true, false, false⟩
  | .vfnma _ => some ⟨.v, 0x005, .vreg, .vector, .vector, .modifier, .vfp, true, true, false, false⟩
  | .vdiv _ => some ⟨.v, 0x006, .vreg, .vector, .vector, .modifier, .vfp, true, false, false, false⟩
  | .vsqrt _ => some ⟨.v, 0x007, .vreg, .vector, .unused, .modifier, .vfp, true, false, false, false⟩
  | .vrcp _ => some ⟨.v, 0x008, .vreg, .vector, .unused, .modifier, .vfp, true, false, false, false⟩
  | .vrsq _ => some ⟨.v, 0x009, .vreg, .vector, .unused, .modifier, .vfp, true, false, false, false⟩
  | .vexp2 _ => some ⟨.v, 0x00A, .vreg, .vector, .unused, .modifier, .vfp, true, false, false, false⟩
  | .vlog2 _ => some ⟨.v, 0x00B, .vreg, .vector, .unused, .modifier, .vfp, true, false, false, false⟩
  | .vmin _ => some ⟨.v, 0x00C, .vreg, .vector, .vector, .modifier, .vw, true, false, false, false⟩
  | .vmax _ => some ⟨.v, 0x00D, .vreg, .vector, .vector, .modifier, .vw, true, false, false, false⟩
  | .vsgn _ => some ⟨.v, 0x00E, .vreg, .vector, .vector, .modifier, .vw, true, false, false, false⟩
  | .vcmp _ => some ⟨.v, 0x00F, .mask, .vector, .vector, .modifier, .vcmp, true, false, false, false⟩
  | .vsel _ => some ⟨.v, 0x010, .vreg, .vector, .vector, .modifier, .vw, true, false, false, false⟩
  | .vclass _ => some ⟨.v, 0x011, .vreg, .vector, .unused, .modifier, .vw, true, false, false, false⟩
  | .viadd _ => some ⟨.v, 0x020, .vreg, .vector, .vector, .modifier, .vw, true, false, false, false⟩
  | .visub _ => some ⟨.v, 0x021, .vreg, .vector, .vector, .modifier, .vw, true, false, false, false⟩
  | .vimul _ => some ⟨.v, 0x022, .vreg, .vector, .vector, .modifier, .vw, true, false, false, false⟩
  | .vand _ => some ⟨.v, 0x023, .vreg, .vector, .vector, .modifier, .vw, true, false, false, false⟩
  | .vor _ => some ⟨.v, 0x024, .vreg, .vector, .vector, .modifier, .vw, true, false, false, false⟩
  | .vxor _ => some ⟨.v, 0x025, .vreg, .vector, .vector, .modifier, .vw, true, false, false, false⟩
  | .vshl _ => some ⟨.v, 0x026, .vreg, .vector, .vector, .modifier, .vw, true, false, false, false⟩
  | .vshr _ => some ⟨.v, 0x027, .vreg, .vector, .vector, .modifier, .vw, true, false, false, false⟩
  | .vsar _ => some ⟨.v, 0x028, .vreg, .vector, .vector, .modifier, .vw, true, false, false, false⟩
  | .vimin _ => some ⟨.v, 0x029, .vreg, .vector, .vector, .modifier, .vimm, true, false, false, false⟩
  | .vimax _ => some ⟨.v, 0x02A, .vreg, .vector, .vector, .modifier, .vimm, true, false, false, false⟩
  | .vicmp _ => some ⟨.v, 0x02B, .mask, .vector, .vector, .modifier, .vicmp, true, false, false, false⟩
  | .vcvt _ => some ⟨.v, 0x040, .vreg, .vector, .field, .modifier, .vcvt, true, false, false, false⟩
  | .vqnt _ => some ⟨.v, 0x041, .vreg, .vector, .field, .modifier, .vqnt, true, false, false, false⟩
  | .vdqt _ => some ⟨.v, 0x042, .vreg, .vector, .field, .modifier, .vqnt, true, false, false, false⟩
  | .vred _ => some ⟨.v, 0x050, .vreg, .vector, .field, .modifier, .vred, true, false, false, false⟩
  | .vscan _ => some ⟨.v, 0x051, .vreg, .vector, .field, .modifier, .vred, true, false, false, false⟩
  | .vperm _ => some ⟨.v, 0x052, .vreg, .vector, .vector, .modifier, .vw, true, false, false, false⟩
  | .vbcast _ => some ⟨.v, 0x053, .vreg, .scalar, .unused, .modifier, .vw, true, false, false, false⟩
  | .vext _ => some ⟨.v, 0x054, .vreg, .vector, .scalar, .modifier, .vw, true, false, false, false⟩
  | .vins _ => some ⟨.v, 0x055, .vreg, .scalar, .scalar, .modifier, .bit0, true, true, false, false⟩
  | .mlog _ => some ⟨.v, 0x060, .mask, .maskField, .maskField, .modifier, .plog, true, false, false, false⟩
  | .mpop _ => some ⟨.v, 0x061, .vreg, .maskField, .maskField, .modifier, .vmask, true, false, false, false⟩
  | .mfirst _ => some ⟨.v, 0x062, .vreg, .maskField, .maskField, .modifier, .vmask, true, false, false, false⟩
  | .vld _ => some ⟨.v, 0x070, .vreg, .streamField, .unused, .modifier, .vmask, false, false, false, false⟩
  | .vst _ => some ⟨.v, 0x071, .none, .vector, .streamField, .modifier, .vmask, false, false, false, false⟩
  | .accrd _ => some ⟨.v, 0x072, .vreg, .scalar, .unused, .modifier, .vmask, false, false, false, false⟩
  | .accwr _ => some ⟨.v, 0x073, .none, .vector, .scalar, .modifier, .vmask, false, false, false, false⟩
  | .vmov _ => some ⟨.v, 0x074, .vreg, .vector, .unused, .modifier, .vw, false, false, false, false⟩
  | .vptest _ => some ⟨.v, 0x080, .mask, .vector, .unused, .modifier, .vptype, false, false, false, false⟩
  | .vpchk _ => some ⟨.v, 0x081, .none, .vector, .unused, .modifier, .vptype, false, false, false, false⟩
  | .vpsan _ => some ⟨.v, 0x082, .vreg, .vector, .vector, .modifier, .vptype, false, false, false, false⟩
  | .mma _ => some ⟨.m, 0x001, .tile, .scalar, .scalar, .scalar, .any, false, false, false, false⟩
  | .mmag _ => some ⟨.m, 0x002, .tile, .scalar, .scalar, .scalar, .any, false, false, false, false⟩
  | .mconv _ => some ⟨.m, 0x003, .tile, .scalar, .scalar, .scalar, .any, false, false, false, false⟩
  | .gset _ => some ⟨.m, 0x004, .noTile, .scalar, .scalar, .scalar, .any, false, false, false, false⟩
  | .cset _ => some ⟨.m, 0x005, .noTile, .vector, .unused, .unused, .any, false, false, false, false⟩
  | .wld _ => some ⟨.m, 0x006, .noTile, .scalar, .scalar, .unused, .any, false, false, false, false⟩
  | .accz _ => some ⟨.m, 0x007, .tile, .unused, .unused, .unused, .any, false, false, false, false⟩
  | .accst _ => some ⟨.m, 0x008, .tile, .scalar, .scalar, .scalar, .any, false, false, false, false⟩
  | .accld _ => some ⟨.m, 0x009, .tile, .scalar, .unused, .scalar, .any, false, false, false, false⟩
  | .lend _ => some ⟨.m, 0x00A, .noTile, .bankField, .unused, .unused, .any, false, false, false, false⟩
  | .lendRet _ => some ⟨.m, 0x00A, .noTile, .bankField, .unused, .unused, .any, false, false, false, false⟩
  | .mwait _ => some ⟨.m, 0x00B, .noTile, .unused, .unused, .unused, .any, false, false, false, false⟩
  | .ewr _ => some ⟨.e, 0x000, .none, .scalar, .unused, .modifier, .ewr, false, false, false, false⟩
  | .erd _ => some ⟨.e, 0x002, .ereg, .unused, .unused, .modifier, .ewr, false, false, false, false⟩
  | .egoCopy _ => some ⟨.e, 0x001, .ereg, .unused, .field, .modifier, .egoCopy, false, false, false, false⟩
  | .egoMerge _ => some ⟨.e, 0x001, .ereg, .unused, .field, .modifier, .egoKey, false, false, false, false⟩
  | .egoInter _ => some ⟨.e, 0x001, .ereg, .unused, .field, .modifier, .egoKey, false, false, false, false⟩
  | .egoExpand _ => some ⟨.e, 0x001, .ereg, .unused, .field, .modifier, .egoKey, false, false, false, false⟩
  | .egoHist _ => some ⟨.e, 0x001, .ereg, .unused, .field, .modifier, .egoKey, false, false, false, false⟩
  | .egoPsum _ => some ⟨.e, 0x001, .ereg, .unused, .field, .modifier, .egoKey, false, false, false, false⟩
  | .egoHbuild _ => some ⟨.e, 0x001, .ereg, .unused, .field, .modifier, .egoKey, false, false, false, false⟩
  | .egoHprobe _ => some ⟨.e, 0x001, .ereg, .unused, .field, .modifier, .egoKey, false, false, false, false⟩
  | .egoRules _ => some ⟨.e, 0x001, .ereg, .unused, .field, .modifier, .egoKey, false, false, false, false⟩
  | .egoNnz _ => some ⟨.e, 0x001, .ereg, .unused, .field, .modifier, .egoKey, false, false, false, false⟩
  | .egoCload _ => some ⟨.e, 0x001, .ereg, .unused, .field, .modifier, .egoCirc, false, false, false, false⟩
  | .egoEval _ => some ⟨.e, 0x001, .ereg, .unused, .field, .modifier, .egoCirc, false, false, false, false⟩
  | .egoPupd _ => some ⟨.e, 0x001, .ereg, .unused, .field, .modifier, .egoCirc, false, false, false, false⟩
  | .egoPflip _ => some ⟨.e, 0x001, .ereg, .unused, .field, .modifier, .egoCirc, false, false, false, false⟩
  | .egoCstat _ => some ⟨.e, 0x001, .ereg, .unused, .field, .modifier, .egoCirc, false, false, false, false⟩
  | .egoLsend _ => some ⟨.e, 0x001, .ereg, .unused, .field, .modifier, .egoLink, false, false, false, false⟩
  | .egoLrecv _ => some ⟨.e, 0x001, .ereg, .unused, .field, .modifier, .egoLink, false, false, false, false⟩
  | .egoLradd _ => some ⟨.e, 0x001, .ereg, .unused, .field, .modifier, .egoLink, false, false, false, false⟩
  | .ownGive _ => some ⟨.e, 0x003, .none, .field, .unused, .modifier, .own, false, false, false, false⟩
  | .ownTake _ => some ⟨.e, 0x003, .none, .field, .unused, .modifier, .own, false, false, false, false⟩
  | .xsend _ => some ⟨.e, 0x004, .none, .vector, .coord, .modifier, .xsend, false, false, false, false⟩
  | .xrecv _ => some ⟨.e, 0x005, .none, .scalar, .coord, .modifier, .xrecv, false, false, false, false⟩
  | .tdef _ => some ⟨.e, 0x006, .none, .vector, .unused, .modifier, .any, false, false, false, false⟩
  | .trd _ => some ⟨.e, 0x007, .ereg, .scalar, .unused, .modifier, .any, false, false, false, false⟩
  | .fmtset _ => some ⟨.e, 0x008, .none, .scalar, .unused, .modifier, .low4, false, false, false, false⟩
  | .spat _ => some ⟨.e, 0x009, .none, .vector, .unused, .modifier, .low3, false, false, false, false⟩
  | .srst _ => some ⟨.e, 0x00A, .none, .unused, .unused, .modifier, .srst, false, false, false, false⟩
  | .srstClr _ => some ⟨.e, 0x00A, .none, .unused, .unused, .modifier, .srst, false, false, false, false⟩
  | .bwph _ => some ⟨.e, 0x00B, .none, .scalar, .unused, .modifier, .zero, false, false, false, false⟩
  | .bpwrRetain _ => some ⟨.e, 0x00C, .none, .scalar, .unused, .modifier, .low3, false, false, false, false⟩
  | .bpwrWake _ => some ⟨.e, 0x00C, .none, .scalar, .unused, .modifier, .low3, false, false, false, false⟩
  | .bundleIssue _ => none
  | .resultWriteback _ => none
  | .mldDataLand _ _ => none
  | .fpTrap _ => none
  | .step _ => none
  | .cui _ => none
  | .syncRestart _ => none
  | .yieldDecision _ => none
  | .loopPass _ => none
  | .arbiterGrant => none
  | .throttleBlock _ => none
  | .hardStop => none
  | .preemptionRequest => none
  | .preemptionPointStop _ => none
  | .fullPreemption => none
  | .contextSave _ => none
  | .contextRestore _ _ => none
  | .overrun _ => none
  | .xentryArrival _ => none
  | .streamFetch _ _ => none
  | .streamStoreWrite _ => none
  | .bankWakeDone _ => none
  | .matrixResultValid _ => none
  | .wldGranuleWrite _ => none
  | .accstDelivery _ => none
  | .storeLeave _ _ => none
  | .loadSend _ _ => none
  | .linePerform _ => none
  | .engineAccess _ _ _ => none
  | .ingressMove _ _ => none
  | .pageWalk _ => none
  | .panIdle _ => none
  | .panRetain _ => none
  | .panWakeDone _ => none
  | .panInitDone _ => none
  | .patrolScrub => none
  | .scrubSweep _ => none
  | .originReservationRefill _ => none
  | .originEntryFill => none
  | .hubBwphaseApply => none
  | .segmentCommit _ => none
  | .segmentRewind _ => none
  | .rerunCompare _ => none
  | .uncontainedFault => none
  | .copyTransferStart _ _ => none
  | .expandBundleWrite _ _ => none
  | .copyComplete _ _ => none
  | .keyStep _ => none
  | .keyOpComplete _ => none
  | .circOpStart _ => none
  | .sectionFetchDone _ => none
  | .circuitStep _ => none
  | .circuitGroupDone _ => none
  | .circOpComplete _ => none
  | .linkMessageArrival _ _ => none
  | .linkOpComplete _ => none
  | .linkTimeout _ => none
  | .pause _ _ => none
  | .resume _ _ => none
  | .flitReplay _ _ => none
  | .portDown _ _ => none
  | .gangPlacement _ _ => none
  | .domainStart _ => none
  | .launchEnd _ => none
  | .packetCompletion _ => none
  | .nopq _ => none
  | .launch _ => none
  | .load _ => none
  | .unload _ => none
  | .waitval _ => none
  | .waitvalReread _ => none
  | .signal _ => none
  | .barrier _ => none
  | .xlateinv _ => none
  | .panctlAlloc _ => none
  | .panctlFree _ => none
  | .panctlPhase _ => none
  | .qappend => none
  | .cfgrd => none
  | .cfgwr => none
  | .memrd => none
  | .memwr => none
  | .fabricPanctl => none
  | .ctxctlWrite => none
  | .faultctlResume => none
  | .faultctlEnd => none
  | .qctlBind => none
  | .qctlStart => none
  | .qctlHold => none
  | .qctlRelease => none
  | .qctlUnbind => none
  | .pwrctlWrite => none
  | .attctlStart => none
  | .attestationReportDone => none
  | .kemctWrite => none
  | .keyctlInstall => none
  | .keyctlErase => none
  | .nodeidWrite => none
  | .mgmtStatusRead => none
  | .debugClaim => none
  | .singleStepArm => none
  | .hardStopRequest => none
  | .mgmtParameterSet => none
  | .resetRelease => none
  | .bufferWriteTakesEffect _ => none
  | .linkTrainingDone => none
  | .coreReturnedToService => none
  | .boundaryScanAccess => none

/-- R54: a source selector is valid for a scalar (`vec = false`) or a vector operand, with NLIT halfwords in use. -/
def selOk (vec : Bool) (nlit : Nat) (x : BitVec 8) : Bool :=
  let n := x.toNat
  if n < 0x40 then true
  else if n < 0x80 then vec
  else if n < 0x8E then true
  else if n < 0x90 then false
  else if n < 0x99 then n - 0x90 < nlit
  else if n < 0xA0 then false
  else if n < 0xA8 then n - 0xA0 + 1 < nlit
  else if n < 0xB0 then false
  else if n < 0xB6 then n - 0xB0 + 3 < nlit
  else if n < 0xC0 then false
  else n < 0xF3

/-- MOD bits 3:1, RM (R53). -/
def Op.rm (o : Op) : Nat := (o.m.extractLsb' 1 3).toNat

/-- MOD bits 4:1. -/
def Op.m41 (o : Op) : Nat := (o.m.extractLsb' 1 4).toNat

/-- MOD bits 7:5: a write mask, or the condition of FCMP. -/
def Op.m75 (o : Op) : Nat := (o.m.extractLsb' 5 3).toNat

/-- MOD bit 0: W or D. -/
def Op.w (o : Op) : Bool := o.m.getLsbD 0

/-- MOD bit 4, OVF: true is SAT. -/
def Op.sat (o : Op) : Bool := o.m.getLsbD 4

/-- The engine number in SRCB bits 2:0 of EGO (R243). -/
def Op.egoEngine (o : Op) : Nat := (o.b.extractLsb' 0 3).toNat

/-- A source byte obeys its kind (R53-R55, R120, R156, R190, R192, R259). -/
def srcOk (k : SrcKind) (nlit : Nat) (o : Op) (x : BitVec 8) : Bool :=
  match k with
  | .unused => x == 0
  | .scalar => selOk false nlit x
  | .vector => selOk true nlit x
  | .predField => x.toNat < 0x18
  | .maskField => x.toNat < 8
  | .streamField => x.toNat < 8
  | .bankField => (x &&& 0x7F) == 1 || (x &&& 0x7F) == 3
  | .coord => if o.m.extractLsb' 0 2 == 0 then selOk false nlit x else x == 0
  | .field => true
  | .modifier => true

/-- The system-register numbers of R130. -/
def sysregNumbers : List Nat :=
  [0x00, 0x01, 0x02, 0x03, 0x04, 0x05, 0x06, 0x08, 0x09, 0x0A, 0x0B, 0x0C, 0x10, 0x11, 0x12, 0x13, 0x14, 0x18, 0x19]

/-- The modifier byte and the fields that go with it obey the instruction's description. -/
def modOk (k : ModKind) (o : Op) : Bool :=
  let n := o.m.toNat
  match k with
  | .zero => n == 0
  | .any => true
  | .bit0 => n < 2
  | .low2 => n < 4
  | .low3 => n < 8
  | .low4 => n < 16
  | .low5 => n < 32
  | .engine => n < 7
  | .fence => n < 32 && n % 4 != 3 && n / 4 < 5
  | .len => n / 2 < (if o.w then 64 else 32)
  | .icmp => n < 32 && o.m41 < 12
  | .plog => n < 32 && n % 2 == 0 && o.m41 < 10 && (o.m41 < 8 || o.b == 0)
  | .fp => n < 32 && o.rm < 5
  | .fcmp => o.m41 == 0 && o.m75 < 6
  | .rm => o.rm < 5
  | .sysreg => sysregNumbers.contains n
  | .mld => n < 0x20 && o.rm < 5
  | .mst => n < 0x80 && o.rm < 5 && (n / 16 % 4 == 0 || n / 16 % 4 == 2)
  | .amo => o.rm < 5 && n / 16 < 11 && !(n / 16 == 1 && o.w)
  | .red => o.rm < 5 && n / 16 < 9 && !(n / 16 == 1 && o.w)
  | .vfp => o.rm < 5
  | .vw => o.m41 == 0
  | .vmask => o.m41 == 0 && !o.w
  | .vcmp => o.rm < 6 && !o.sat
  | .vicmp => o.m41 < 12
  | .vimm => o.m41 < 2
  | .vcvt => !o.w && o.rm < 5 && (o.b &&& 0x60) == 0 && (o.b &&& 0x1F).toNat < 16
      && !(o.b.getLsbD 7 && 6 ≤ (o.b &&& 0x1F).toNat && (o.b &&& 0x1F).toNat ≤ 13)
  | .vqnt => !o.w && o.rm < 5 && o.b.toNat < 16
  | .vred => o.b.toNat < 4 && o.rm < 5 && (o.b == 0 || o.m41 == 0)
  | .vptype => n / 4 % 8 == 0
  | .ewr => n < 0x80 && n % 8 != 7
  | .egoCopy => o.b.toNat < 16 && o.egoEngine < 4
  | .egoKey => o.b.toNat < 16 && o.egoEngine == 4
  | .egoCirc => o.b.toNat < 16 && o.egoEngine == 5
  | .egoLink => o.b.toNat < 16 && o.egoEngine == 6
  | .own => n < 16 && n % 8 != 7
  | .xsend => n < 3
  | .xrecv => n < 8 && n % 4 != 3
  | .srst => n < 16

/-- The bank code of DST bits 31:30 and the index in bits 29:25 (R52). -/
def Op.dstBank (o : Op) : Nat := (o.dst.extractLsb' 5 2).toNat
/-- DST bits 29:25. -/
def Op.dstIdx (o : Op) : Nat := (o.dst.extractLsb' 0 5).toNat

/-- R52: the destination field as slot position `pos` decodes it. -/
def destOk (k : DestKind) (pos : Nat) (o : Op) : Bool :=
  match k with
  | .none => o.dst == 0 && !o.nw
  | .sreg => o.dstBank == pos - 1
  | .pred => o.dstBank == 0 && o.dstIdx < 16
  | .vreg => o.dstBank / 2 == pos - 3
  | .mask => o.dstBank == 0 && o.dstIdx < 8
  | .ereg => o.dstBank < 2
  | .tile => true
  | .noTile => o.dst == 0 && !o.nw

/-- The partner of a slot under the shadow rules (R112, R174). -/
def partner (pos : Nat) : Nat :=
  match pos with
  | 1 => 2
  | 2 => 1
  | 3 => 4
  | 4 => 3
  | p => p

/-- AMO reads DST as its compare value only in the CAS form (R53, R136). -/
def Instr.destRead (i : Instr) (f : Form) (o : Op) : Bool :=
  f.dread && (match i with | .amo _ => o.m.toNat / 16 == 10 | _ => true)

/-- The fields of a slot operation in slot `pos` of a bundle with `nlit` pool halfwords are legal: check 2 of R64
as the word and the header decide it. -/
def Instr.fieldsOk (pos nlit : Nat) (i : Instr) : Bool :=
  match i.form, i.op? with
  | some f, some o =>
    decide (SlotClass.ofPos pos = f.cls)
      && (!f.s1only || pos == 2)
      && (!o.sh || f.shadow)
      && !(o.pinv && o.pred == 0)
      && (!f.unguarded || (o.pred == 0 && !o.pinv))
      && (if o.nw && f.dest != .tile && !i.destRead f o then o.dst == 0
          else destOk f.dest (if o.sh then partner pos else pos) o)
      && ((f.dest != .none && f.dest != .noTile) || !o.nw)
      && srcOk f.a nlit o o.a && srcOk f.b nlit o o.b && srcOk f.c nlit o o.m
      && modOk f.mod o
  | _, _ => false

end Sys2Proof
end

