-- ==== Sys2Proof/Decode.lean ====
section
/-! DEFINITION. The decoder of slot words and bundles, and after it the encoder (03 R46-R57, R62-R69).

Decoding is total: a word gives an instruction, or UNDEF (an opcode outside its class's table, R63), or ILLEGAL
(an opcode whose modifier names no operation: a FENCE kind of 3, an EGO code outside R69). -/

namespace Sys2Proof

/-- What a slot word decodes to (R63, R64 checks 1 and 2). -/
inductive Decoded where
  /-- An instruction; its fields are still to be checked (`Instr.fieldsOk`). -/
  | ok (i : Instr)
  /-- The opcode is not in its class's table: UNDEF. -/
  | undef
  /-- The opcode is known and its modifier names no operation: ILLEGAL. -/
  | illegal
  deriving DecidableEq, Repr, Inhabited

/-- OPC, bits 47:38 (R49). -/
def slotOpc (w : BitVec 48) : Nat := (w.extractLsb' 38 10).toNat

/-- The fields below the opcode (R49). -/
def slotOp (w : BitVec 48) : Op where
  sh := w.getLsbD 37
  pinv := w.getLsbD 36
  pred := w.extractLsb' 32 4
  dst := w.extractLsb' 25 7
  nw := w.getLsbD 24
  a := w.extractLsb' 16 8
  b := w.extractLsb' 8 8
  m := w.extractLsb' 0 8

/-- The C-slot opcodes (R65). -/
def decodeC (opc : Nat) (o : Op) : Decoded :=
  match opc with
  | 0x000 => .ok (.nop o)
  | 0x001 => .ok (.br o)
  | 0x002 => .ok (.jmp o)
  | 0x003 => .ok (.call o)
  | 0x004 => .ok (.callr o)
  | 0x005 => .ok (.ret o)
  | 0x010 => .ok (.loop o)
  | 0x011 => .ok (.lbrk o)
  | 0x020 => .ok (.sync o)
  | 0x021 => .ok (.yield o)
  | 0x022 => .ok (.waitx o)
  | 0x023 => .ok (.waito o)
  | 0x024 => .ok (.waitb o)
  | 0x025 =>
    match (o.m.extractLsb' 0 2).toNat with
    | 0x00 => .ok (.fenceFull o)
    | 0x01 => .ok (.fenceStore o)
    | 0x02 => .ok (.fenceLoad o)
    | _ => .illegal
  | 0x026 => .ok (.ifence o)
  | 0x027 => .ok (.bswp o)
  | 0x030 => .ok (.trap o)
  | 0x031 => .ok (.rft o)
  | 0x032 => .ok (.brk o)
  | 0x033 => .ok (.halt o)
  | 0x034 => .ok (.qpost o)
  | 0x035 =>
    match (o.m.extractLsb' 0 1).toNat with
    | 0x00 => .ok (.cuienOff o)
    | _ => .ok (.cuienOn o)
  | _ => .undef

/-- The S-slot opcodes (R66). -/
def decodeS (opc : Nat) (o : Op) : Decoded :=
  match opc with
  | 0x000 => .ok (.add o)
  | 0x001 => .ok (.sub o)
  | 0x002 => .ok (.mul o)
  | 0x003 => .ok (.mulh o)
  | 0x004 => .ok (.mulhn o)
  | 0x005 => .ok (.div o)
  | 0x006 => .ok (.divn o)
  | 0x007 => .ok (.rem o)
  | 0x008 => .ok (.remn o)
  | 0x009 => .ok (.and o)
  | 0x00A => .ok (.or o)
  | 0x00B => .ok (.xor o)
  | 0x00C => .ok (.andn o)
  | 0x00D => .ok (.shl o)
  | 0x00E => .ok (.shr o)
  | 0x00F => .ok (.sar o)
  | 0x010 => .ok (.rot o)
  | 0x011 => .ok (.min o)
  | 0x012 => .ok (.max o)
  | 0x013 => .ok (.minn o)
  | 0x014 => .ok (.maxn o)
  | 0x015 => .ok (.clz o)
  | 0x016 => .ok (.popc o)
  | 0x017 => .ok (.bext o)
  | 0x018 => .ok (.bins o)
  | 0x019 => .ok (.sel o)
  | 0x01A => .ok (.mov o)
  | 0x01B => .ok (.cmp o)
  | 0x01C => .ok (.plog o)
  | 0x01D => .ok (.sext o)
  | 0x040 => .ok (.fadd o)
  | 0x041 => .ok (.fsub o)
  | 0x042 => .ok (.fmul o)
  | 0x043 => .ok (.ffma o)
  | 0x044 => .ok (.ffms o)
  | 0x045 => .ok (.fdiv o)
  | 0x046 => .ok (.fsqrt o)
  | 0x047 => .ok (.fmin o)
  | 0x048 => .ok (.fmax o)
  | 0x049 => .ok (.fcmp o)
  | 0x04A => .ok (.fcvt o)
  | 0x04B => .ok (.fclass o)
  | 0x04C => .ok (.fsgn o)
  | 0x060 => .ok (.ptest o)
  | 0x061 => .ok (.porig o)
  | 0x062 => .ok (.pchk o)
  | 0x063 => .ok (.psan o)
  | 0x064 => .ok (.chkeq o)
  | 0x080 => .ok (.mfs o)
  | 0x081 => .ok (.mts o)
  | 0x082 => .ok (.mld o)
  | 0x083 => .ok (.mst o)
  | 0x084 => .ok (.amo o)
  | 0x085 => .ok (.red o)
  | _ => .undef

/-- The V-slot opcodes (R67). -/
def decodeV (opc : Nat) (o : Op) : Decoded :=
  match opc with
  | 0x000 => .ok (.vadd o)
  | 0x001 => .ok (.vsub o)
  | 0x002 => .ok (.vmul o)
  | 0x003 => .ok (.vfma o)
  | 0x004 => .ok (.vfms o)
  | 0x005 => .ok (.vfnma o)
  | 0x006 => .ok (.vdiv o)
  | 0x007 => .ok (.vsqrt o)
  | 0x008 => .ok (.vrcp o)
  | 0x009 => .ok (.vrsq o)
  | 0x00A => .ok (.vexp2 o)
  | 0x00B => .ok (.vlog2 o)
  | 0x00C => .ok (.vmin o)
  | 0x00D => .ok (.vmax o)
  | 0x00E => .ok (.vsgn o)
  | 0x00F => .ok (.vcmp o)
  | 0x010 => .ok (.vsel o)
  | 0x011 => .ok (.vclass o)
  | 0x020 => .ok (.viadd o)
  | 0x021 => .ok (.visub o)
  | 0x022 => .ok (.vimul o)
  | 0x023 => .ok (.vand o)
  | 0x024 => .ok (.vor o)
  | 0x025 => .ok (.vxor o)
  | 0x026 => .ok (.vshl o)
  | 0x027 => .ok (.vshr o)
  | 0x028 => .ok (.vsar o)
  | 0x029 => .ok (.vimin o)
  | 0x02A => .ok (.vimax o)
  | 0x02B => .ok (.vicmp o)
  | 0x040 => .ok (.vcvt o)
  | 0x041 => .ok (.vqnt o)
  | 0x042 => .ok (.vdqt o)
  | 0x050 => .ok (.vred o)
  | 0x051 => .ok (.vscan o)
  | 0x052 => .ok (.vperm o)
  | 0x053 => .ok (.vbcast o)
  | 0x054 => .ok (.vext o)
  | 0x055 => .ok (.vins o)
  | 0x060 => .ok (.mlog o)
  | 0x061 => .ok (.mpop o)
  | 0x062 => .ok (.mfirst o)
  | 0x070 => .ok (.vld o)
  | 0x071 => .ok (.vst o)
  | 0x072 => .ok (.accrd o)
  | 0x073 => .ok (.accwr o)
  | 0x074 => .ok (.vmov o)
  | 0x080 => .ok (.vptest o)
  | 0x081 => .ok (.vpchk o)
  | 0x082 => .ok (.vpsan o)
  | _ => .undef

/-- The M-slot opcodes (R68). -/
def decodeM (opc : Nat) (o : Op) : Decoded :=
  match opc with
  | 0x001 => .ok (.mma o)
  | 0x002 => .ok (.mmag o)
  | 0x003 => .ok (.mconv o)
  | 0x004 => .ok (.gset o)
  | 0x005 => .ok (.cset o)
  | 0x006 => .ok (.wld o)
  | 0x007 => .ok (.accz o)
  | 0x008 => .ok (.accst o)
  | 0x009 => .ok (.accld o)
  | 0x00A =>
    match (o.a.extractLsb' 7 1).toNat with
    | 0x00 => .ok (.lend o)
    | _ => .ok (.lendRet o)
  | 0x00B => .ok (.mwait o)
  | _ => .undef

/-- The E-slot opcodes (R68, R69). -/
def decodeE (opc : Nat) (o : Op) : Decoded :=
  match opc with
  | 0x000 => .ok (.ewr o)
  | 0x001 =>
    match (o.m.extractLsb' 0 8).toNat with
    | 0x01 => .ok (.egoCopy o)
    | 0x10 => .ok (.egoMerge o)
    | 0x11 => .ok (.egoInter o)
    | 0x12 => .ok (.egoExpand o)
    | 0x13 => .ok (.egoHist o)
    | 0x14 => .ok (.egoPsum o)
    | 0x15 => .ok (.egoHbuild o)
    | 0x16 => .ok (.egoHprobe o)
    | 0x17 => .ok (.egoRules o)
    | 0x18 => .ok (.egoNnz o)
    | 0x20 => .ok (.egoCload o)
    | 0x21 => .ok (.egoEval o)
    | 0x22 => .ok (.egoPupd o)
    | 0x23 => .ok (.egoPflip o)
    | 0x24 => .ok (.egoCstat o)
    | 0x30 => .ok (.egoLsend o)
    | 0x31 => .ok (.egoLrecv o)
    | 0x32 => .ok (.egoLradd o)
    | _ => .illegal
  | 0x002 => .ok (.erd o)
  | 0x003 =>
    match (o.m.extractLsb' 3 1).toNat with
    | 0x00 => .ok (.ownGive o)
    | _ => .ok (.ownTake o)
  | 0x004 => .ok (.xsend o)
  | 0x005 => .ok (.xrecv o)
  | 0x006 => .ok (.tdef o)
  | 0x007 => .ok (.trd o)
  | 0x008 => .ok (.fmtset o)
  | 0x009 => .ok (.spat o)
  | 0x00A =>
    match (o.m.extractLsb' 3 1).toNat with
    | 0x00 => .ok (.srst o)
    | _ => .ok (.srstClr o)
  | 0x00B => .ok (.bwph o)
  | 0x00C =>
    match (o.m.extractLsb' 2 1).toNat with
    | 0x00 => .ok (.bpwrRetain o)
    | _ => .ok (.bpwrWake o)
  | _ => .undef

/-- The instruction a 48-bit word holds in a slot of class `cl` (R62, R63). -/
def decodeClass (cl : SlotClass) (w : BitVec 48) : Decoded :=
  match cl with
  | .c => decodeC (slotOpc w) (slotOp w)
  | .s => decodeS (slotOpc w) (slotOp w)
  | .v => decodeV (slotOpc w) (slotOp w)
  | .m => decodeM (slotOpc w) (slotOp w)
  | .e => decodeE (slotOpc w) (slotOp w)

/-- The instruction a 48-bit word holds in slot position `pos`. -/
def decodeSlot (pos : Nat) (w : BitVec 48) : Decoded := decodeClass (SlotClass.ofPos pos) w

/-! ## Bundles (R46, R47) -/

/-- The header word, bits 31:0. -/
def bundleHeader (b : BitVec 512) : BitVec 32 := b.extractLsb' 0 32
/-- Slot i's word, bits 79 + 48i : 32 + 48i. -/
def bundleSlot (b : BitVec 512) (i : Nat) : BitVec 48 := b.extractLsb' (32 + 48 * i) 48
/-- Pool halfword hk, bits 383 + 16k : 368 + 16k. -/
def bundleHalf (b : BitVec 512) (k : Nat) : BitVec 16 := b.extractLsb' (368 + 16 * k) 16
/-- NLIT, header bits 14:11. -/
def hdrNlit (h : BitVec 32) : Nat := (h.extractLsb' 11 4).toNat
/-- PRESENT bit i, header bit 4 + i. -/
def hdrPresent (h : BitVec 32) (i : Nat) : Bool := h.getLsbD (4 + i)
/-- YPT, header bit 3. -/
def hdrYpt (h : BitVec 32) : Bool := h.getLsbD 3
/-- IWIN, header bit 2. -/
def hdrIwin (h : BitVec 32) : Bool := h.getLsbD 2
/-- LDEAD, header bit 1. -/
def hdrLdead (h : BitVec 32) : Bool := h.getLsbD 1
/-- CKPT, header bit 0. -/
def hdrCkpt (h : BitVec 32) : Bool := h.getLsbD 0

/-- The C slot is present and holds YIELD's opcode (R47 YPT, R48). -/
def holdsYield (b : BitVec 512) : Bool :=
  hdrPresent (bundleHeader b) 0 && slotOpc (bundleSlot b 0) == 0x021

/-- The header checks of R48. -/
def headerOk (b : BitVec 512) : Bool :=
  let h := bundleHeader b
  h.extractLsb' 15 17 == 0 && hdrNlit h < 10 && hdrYpt h == holdsYield b

/-- The lowest present slot at or above j. -/
def nextSlot (h : BitVec 32) : Nat → Nat → Option Nat
  | 0, _ => none
  | fuel + 1, j => if j < 7 then (if hdrPresent h j then some j else nextSlot h fuel (j + 1)) else none

/-- The instruction the decoder reads from a bundle whose bits are `w`: that of its lowest present slot, when the
header and that slot's fields pass R48 and R64 checks 1 and 2. The opcode table gives its rows no bits; an
instruction's bits here are those of the bundle that holds it (R46), so that bit 0 is the header's bit 0. -/
def decodeTableWord (_nbits w : Nat) : Option Instr :=
  let b := BitVec.ofNat 512 w
  if headerOk b then
    match nextSlot (bundleHeader b) 7 0 with
    | none => none
    | some j =>
      match decodeSlot j (bundleSlot b j) with
      | .ok i => if i.fieldsOk j (hdrNlit (bundleHeader b)) then some i else none
      | _ => none
  else none

/-! ## The packed form (R56, R57) -/

/-- The number of present slots (PRESENT's population count). -/
def presentCount (h : BitVec 32) : Nat :=
  ((List.range 7).filter (fun i => hdrPresent h i)).length

/-- The packed length 4 + 6n + 2p of a bundle with header h (R56). -/
def packedLen (h : BitVec 32) : Nat := 4 + 6 * presentCount h + 2 * hdrNlit h

/-- A little-endian number from bytes, the first byte lowest (R2). -/
def leNat : List (BitVec 8) → Nat
  | [] => 0
  | x :: xs => x.toNat + 256 * leNat xs

/-- The n little-endian bytes of a number (R2). -/
def leBytes : Nat → Nat → List (BitVec 8)
  | 0, _ => []
  | n + 1, x => BitVec.ofNat 8 x :: leBytes n (x / 256)

/-- The slot words of a packed bundle placed at their positions (R57): the number that fills bits 367:32 from the
bytes that follow the header. -/
def unpackSlots (h : BitVec 32) : Nat → Nat → List (BitVec 8) → Nat × List (BitVec 8)
  | 0, _, bs => (0, bs)
  | fuel + 1, i, bs =>
    if i < 7 then
      if hdrPresent h i then
        let (r, rest) := unpackSlots h fuel (i + 1) (bs.drop 6)
        (leNat (bs.take 6) * 2 ^ (48 * i) + r, rest)
      else unpackSlots h fuel (i + 1) bs
    else (0, bs)

/-- The full bundle of a packed bundle whose bytes are exactly `bs` (R57): absent slots and halfwords at or above
NLIT are zero. -/
def unpackBundle (bs : List (BitVec 8)) : BitVec 512 :=
  let h := BitVec.ofNat 32 (leNat (bs.take 4))
  let (slots, rest) := unpackSlots h 8 0 (bs.drop 4)
  BitVec.ofNat 512 (h.toNat + 2 ^ 32 * slots + 2 ^ 368 * leNat (rest.take (2 * hdrNlit h)))

/-- The packed form of a full bundle (R56). -/
def packBundle (b : BitVec 512) : List (BitVec 8) :=
  let h := bundleHeader b
  leBytes 4 h.toNat
    ++ ((List.range 7).filter (fun i => hdrPresent h i)).flatMap (fun i => leBytes 6 (bundleSlot b i).toNat)
    ++ (List.range (hdrNlit h)).flatMap (fun k => leBytes 2 (bundleHalf b k).toNat)

/-! ## The encoder -/

/-- A slot word from its opcode and its fields (R49). -/
def encodeOp (opc : Nat) (o : Op) : BitVec 48 :=
  BitVec.ofNat 10 opc ++ BitVec.ofBool o.sh ++ BitVec.ofBool o.pinv ++ o.pred ++ o.dst ++ BitVec.ofBool o.nw
    ++ o.a ++ o.b ++ o.m

/-- The 48-bit word of a slot operation; none for an event, which has no word. -/
def encode (i : Instr) : Option (BitVec 48) :=
  match i.form, i.op? with
  | some f, some o => some (encodeOp f.opc o)
  | _, _ => none

/-- The field that tells rows of one opcode apart holds the constructor's value: the FENCE kind, the EGO code,
LEND's RET bit, and the ON, CLR, TAKE and WAKE bits (R69, R142, R219, R243, R259). -/
def Instr.variantOk : Instr → Bool
  | .fenceFull o => (o.m.extractLsb' 0 2).toNat == 0x00
  | .fenceStore o => (o.m.extractLsb' 0 2).toNat == 0x01
  | .fenceLoad o => (o.m.extractLsb' 0 2).toNat == 0x02
  | .cuienOn o => (o.m.extractLsb' 0 1).toNat == 0x01
  | .cuienOff o => (o.m.extractLsb' 0 1).toNat == 0x00
  | .lend o => (o.a.extractLsb' 7 1).toNat == 0x00
  | .lendRet o => (o.a.extractLsb' 7 1).toNat == 0x01
  | .egoCopy o => (o.m.extractLsb' 0 8).toNat == 0x01
  | .egoMerge o => (o.m.extractLsb' 0 8).toNat == 0x10
  | .egoInter o => (o.m.extractLsb' 0 8).toNat == 0x11
  | .egoExpand o => (o.m.extractLsb' 0 8).toNat == 0x12
  | .egoHist o => (o.m.extractLsb' 0 8).toNat == 0x13
  | .egoPsum o => (o.m.extractLsb' 0 8).toNat == 0x14
  | .egoHbuild o => (o.m.extractLsb' 0 8).toNat == 0x15
  | .egoHprobe o => (o.m.extractLsb' 0 8).toNat == 0x16
  | .egoRules o => (o.m.extractLsb' 0 8).toNat == 0x17
  | .egoNnz o => (o.m.extractLsb' 0 8).toNat == 0x18
  | .egoCload o => (o.m.extractLsb' 0 8).toNat == 0x20
  | .egoEval o => (o.m.extractLsb' 0 8).toNat == 0x21
  | .egoPupd o => (o.m.extractLsb' 0 8).toNat == 0x22
  | .egoPflip o => (o.m.extractLsb' 0 8).toNat == 0x23
  | .egoCstat o => (o.m.extractLsb' 0 8).toNat == 0x24
  | .egoLsend o => (o.m.extractLsb' 0 8).toNat == 0x30
  | .egoLrecv o => (o.m.extractLsb' 0 8).toNat == 0x31
  | .egoLradd o => (o.m.extractLsb' 0 8).toNat == 0x32
  | .ownGive o => (o.m.extractLsb' 3 1).toNat == 0x00
  | .ownTake o => (o.m.extractLsb' 3 1).toNat == 0x01
  | .srst o => (o.m.extractLsb' 3 1).toNat == 0x00
  | .srstClr o => (o.m.extractLsb' 3 1).toNat == 0x01
  | .bpwrRetain o => (o.m.extractLsb' 2 1).toNat == 0x00
  | .bpwrWake o => (o.m.extractLsb' 2 1).toNat == 0x01
  | _ => true

/-- An instruction that has a word: a slot operation whose variant field agrees with its constructor. -/
def Instr.encodable (i : Instr) : Bool := i.op?.isSome && i.variantOk

end Sys2Proof
end

