-- ==== Sys2Proof/Word.lean ====
section
/-! DEFINITION. The word types of the GV740 and nothing else. -/

namespace Sys2Proof

/-- A 64-bit value: a scalar register, an address while it is computed, a system register. -/
abbrev Word := BitVec 64

/-- A byte of a buffer or of device memory. -/
abbrev Byte := BitVec 8

/-- The 256 bytes of a vector register, byte 0 in bits 7:0 (07 R170). -/
abbrev VBits := BitVec 2048

/-- An origin index (04 R86). -/
abbrev Origin := BitVec 15

end Sys2Proof
end

