-- ==== Sys2Proof/Config.lean ====
section
/-! DEFINITION. What the manual leaves open: constants and functions without a body, so that nothing can evaluate
them or prove a value of them. A free value is one of these applied to the state's count of choices, or to the
operands it depends on. The fixed figures of the part stand here as well. -/

namespace Sys2Proof.Config

/-- Choice n between two outcomes that the manual both allows (05 R104: old or new). -/
opaque coin : Nat → Bool

/-- Choice n among several outcomes; the user takes it modulo their number. -/
opaque pick : Nat → Nat

/-- Whether fetch n of a kernel still returns the bundle that an EXPAND has overwritten (03 R58). -/
opaque oldFetch : Nat → Nat → Bool

/-- Choice n of the next step of variable latency, or of none (13 R333). -/
opaque chosen : Nat → Option Instr

/-- Free 64-bit value n. -/
opaque freeWord : Nat → Word
/-- The byte that a save of a launch leaves at an address of its save area (15 R399): the manual gives the area no layout. -/
opaque savedByte : Nat → Nat → Byte

/-- Whether a difference of two values is a code word of the check-bit code (05 R111, R113). -/
opaque isCodeWord : Word → Bool

/-- The signature function of the revision, folded over what a segment writes (14 R379). -/
opaque signature : Word → Nat → Word

/-- Which of the values that the manual's chapters name is TVAL of a tensor that an operation may not use (04 R75; 08 R198, R209,
R223; 09 R245; 11 R303; 12 R318; 16 R414); the user takes it modulo their number. -/
opaque tensorTval : Nat

/-- Whether LSEND may read XS: 16 R414 lists it among its buffers, 08 R198 does not. -/
opaque lsendReadsXs : Bool

/-- The demand of die d in the arbiter's period ending at TIME t, in amperes (16 R416). -/
opaque demand : Nat → Nat → Nat

/-- The number EVENT 0x02 gives a requester that is no queue, below those of queues: its core and 7 for a port, its kernel and
its engine for an engine (16 R413). -/
opaque requester : Nat → Nat → BitVec 31

/-- SHAKE256 of a byte string, to n bytes (FIPS 202; 16 R417-R420). -/
opaque shake256 (n : Nat) : List Byte → Vector Byte n

/-- The ciphertext of an encrypted line by its keys, its tweak and its plain bytes (AES-256-XTS, 16 R419). -/
opaque encLine : List Byte → Nat → List Byte → Vector Byte 64

/-- The decapsulation of a ciphertext under the device's ML-KEM-1024 key, 32 bytes (FIPS 203; 16 R420). -/
opaque kemDecapsulate : List Byte → Vector Byte 32

/-- The SLH-DSA-SHAKE-256s signature of the identity key, 29,792 bytes (FIPS 205; 16 R418). -/
opaque sign : List Byte → Vector Byte 29792

/-- Whether the identity key passes its self-test at TIME t (16 R418). -/
opaque identityOk : Nat → Bool

/-- The identity public key, 64 bytes; the boot-ROM and firmware digests, 64 bytes each (16 R418). -/
opaque identityPublic : Vector Byte 64
/-- The boot-ROM digest (16 R418). -/
opaque bootRomDigest : Vector Byte 64
/-- The firmware digest (16 R418). -/
opaque firmwareDigest : Vector Byte 64
/-- Whether the firmware image verifies against the fused digest (16 R417). -/
opaque firmwareVerifies : Bool

/-- Readings of power, temperature and error counts that management takes at TIME t (16 R421). -/
opaque managementReading : Nat → Nat

/-- DEVFEAT (05 R131): revision 0x01, feature level 0x0001. -/
def devfeat : Word := 0x0001_0001

/-- DEVHASH of revision 0x01 (15 R404). -/
def devhash : Word := 0x93B1_0C5E_27D4_A86F

/-- The bytes of a pan group: 12 GiB (09 R233). -/
def groupBytes : Nat := 12 * 2 ^ 30

/-- The number of pan groups (09 R233). -/
def groups : Nat := 32

/-- Core cycles in a microsecond: 600 (00 R4). -/
def cyclesPerUs : Nat := 600

end Sys2Proof.Config
end

