-- ==== Sys2Proof/Machine/State.lean ====
section
/-! DEFINITION. The state of the package as plain data, and the state after reset.

The register state belongs to a kernel on a core (`Kern`): a yield switch or a pre-emption saves and restores it
whole (15 R395), so that which kernel runs is one number at a site. Buffer contents are kernel-relative, because a
kernel never sees another kernel's partition (08 R201). -/

namespace Sys2Proof.Machine

/-- A sparse table: keys strictly rising; what an absent key holds is said where the table is read. -/
abbrev Tab (α : Type) := List (Nat × α)

/-- Sparse memory, one entry per byte that is not 0. -/
abbrev Memory := List Host.Cell

/-! ## Registers -/

/-- A scalar register: 64 bits, a poison tag per half, the value its check bits were computed over, and the pending
bit (05 R101, R106, R111). -/
structure Reg where
  v : Word
  tl : Bool
  th : Bool
  chk : Word
  pend : Bool
  deriving DecidableEq, Repr, Inhabited

/-- A predicate: value, tag, origin, check bit (05 R103). -/
structure PredReg where
  v : Bool
  tag : Bool
  org : Origin
  chk : Bool
  deriving DecidableEq, Repr, Inhabited

/-- A mask: 64 value bits, 64 tags, one origin for its tagged bits, the value under its check bits (07 R176). -/
structure MaskReg where
  v : Word
  tags : Word
  org : Origin
  chk : Word
  deriving DecidableEq, Repr, Inhabited

/-- A vector register: 256 bytes, a tag per 32-bit element, the value under its check bits (07 R170). -/
structure VReg where
  v : VBits
  tags : Word
  chk : VBits
  deriving DecidableEq, Repr, Inhabited

/-- The content of a bypass latch: 64 bits of an S or E slot, or 256 bytes of a V slot (05 R108). -/
inductive LVal where
  | sc (v : Word) (tl th : Bool) (chk : Word)
  | ve (r : VReg)
  deriving DecidableEq, Repr, Inhabited

/-- Where a result in flight lands (05 R104, R107). A register number is absent under NW = 1. Scalar registers are
numbered sa0-sa31 0-31, sb0-sb31 32-63 and the handler set 64-71; vector registers va 0-31, vb 32-63, vc 64-95,
vd 96-127. -/
inductive FDest where
  | sreg (i : Option Nat) (r : Reg)
  /-- The bytes and the tags that the write replaces (07 R172). -/
  | vreg (i : Option Nat) (r : VReg) (bytes : BitVec 256) (tagm : Word)
  | pred (i : Nat) (p : PredReg)
  /-- The mask bits that the write replaces (07 R176). -/
  | mask (i : Nat) (m : MaskReg) (sel : Word)
  /-- No register: FP conditions alone (10 R273). -/
  | flags
  deriving DecidableEq, Repr, Inhabited

/-- A result in flight. -/
structure Flight where
  /-- Core cycle of its issue. -/
  iss : Nat
  /-- Core cycle in which it lands. -/
  due : Nat
  /-- The slot that issued it. -/
  slot : Nat
  /-- The address of its bundle. -/
  addr : Nat
  dst : FDest
  /-- It enters its slot's latch when it lands: no group switch since its issue (05 R107, R109). -/
  latch : Bool
  /-- It was issued in handler mode. -/
  hnd : Bool
  /-- The FP conditions it raises (04 R85), laid out as FPFLAGS. -/
  flags : BitVec 5
  /-- A read has already returned it (05 R104). -/
  seen : Bool
  deriving DecidableEq, Repr, Inhabited

/-- The hardware loop registers' content (06 R147-R151). -/
structure LoopReg where
  active : Bool
  drain : Bool
  sm1 : BitVec 3
  iim1 : BitVec 6
  k : BitVec 8
  start : BitVec 11
  left : BitVec 32
  /-- LC keeps a suspended loop (R150). -/
  susp : Bool
  /-- LBRK has made the current pass the last (R149). -/
  last : Bool
  deriving DecidableEq, Repr, Inhabited

/-- What a core waits for after its bundle has committed (06 R154, R155, R162). -/
inductive Wait where
  | none
  /-- A SYNC vote; the bundle is a rendezvous (06 R154). -/
  | sync (rdv : Bool)
  | yield (cycles : Nat)
  | waitx (e : Nat) (id : BitVec 32)
  | waito (t : Nat)
  | waitb
  /-- A debug stop (06 R166). -/
  | debug
  deriving DecidableEq, Repr, Inhabited

/-- The special registers and what belongs to them (04 R81, R84; 05 R130; 14 R353, R354, R361). -/
structure Spr where
  tcause : BitVec 8
  tpc : BitVec 14
  tval : Word
  torig : Origin
  tvec : BitVec 11
  /-- POISONCTL.STORE. -/
  pstore : Bool
  fpctl : BitVec 5
  fpflags : BitVec 5
  srseed : Word
  /-- The core's view of BWPHASE (09 R240). -/
  bwphase : BitVec 42
  /-- FP traps to be taken before the next program bundle, each with its TVAL (04 R85). -/
  fpOwed : List Word
  /-- The conditions of results that landed in this core cycle, ORed in after an MTS to FPFLAGS (05 R129). -/
  fpLanded : BitVec 5
  deriving DecidableEq, Repr, Inhabited

/-- The control state of a kernel on a core. -/
structure Ctl where
  /-- ADDR and SLOT of the program counter (03 R60). -/
  pc : BitVec 11
  slot : Nat
  /-- Core cycles until the next issue. -/
  gap : Nat
  /-- The core has already held or issued in this cycle. -/
  tried : Bool
  wait : Wait
  /-- The address of the bundle whose wait holds the core, and the DCYC of its issue (06 R152). -/
  waitAt : BitVec 11
  waitDcyc : Nat
  halted : Bool
  /-- The return stack, newest first: ADDR + 1 of each call, which may be 0x800 (06 R144, 03 R61). -/
  rstack : List (BitVec 12)
  lc0 : LoopReg
  lc1 : LoopReg
  /-- A loop body has ended or a loop begins: LOOP_PASS decides what issues next (06 R147). -/
  boundary : Bool
  handler : Bool
  /-- The address of the trapped bundle (14 R357), the DCYC of the trap (06 R161), the DCYC that a handler reads (06 R152), and
  whether the trap froze the domain. -/
  trapAt : BitVec 11
  trapDcyc : Nat
  trapStamp : Nat
  froze : Bool
  /-- An owed vote: the bundle's address and the declared cycles when it is a YIELD (06 R154). -/
  owed : Option (BitVec 11 × Option Nat)
  /-- H0 and H1 stale (06 R145). -/
  stale0 : Bool
  stale1 : Bool
  cuien : Bool
  /-- Pending completion interrupts: engine and transfer identifier, in completion order (06 R163). -/
  cui : List (Nat × BitVec 32)
  /-- The core cycle in which V0, V1 is still occupied by a binary64 form (07 R173). -/
  occ0 : Option Nat
  occ1 : Option Nat
  /-- A STEP is owed (14 R360). -/
  stepOwed : Bool
  /-- Stopped at a pre-emption point (06 R169). -/
  stopped : Bool
  /-- The DCYC at which the core goes on after a freeze (06 R161). -/
  resumeAt : Option Nat
  /-- An uncontained fault has stopped the core (14 R382). -/
  dead : Bool
  /-- A segment must open before the next bundle issues; whether at a rendezvous (06 R154, 14 R374). -/
  segDue : Option Bool
  /-- Cycles that a rewind still takes (14 R379). -/
  pause : Nat
  /-- Exchange entries that met a full inbox: the senders to be named, one before each next bundle (06 R158). -/
  xOwed : List Nat
  /-- The address of a poison store whose bundle waits for its translation (05 R135), and the TIME of its miss (09 R231). -/
  xlate : Option (Nat × Nat)
  /-- Bundles fetched so far: the model's own count, by which a fetch of a bundle under EXPAND chooses (03 R58). -/
  fetches : Nat
  deriving DecidableEq, Repr, Inhabited

/-! ## Buffers -/

/-- A buffer's partition: bytes, poison marks of 32-byte sectors with their origins (04 R93), the 8-byte words with an
uncorrectable and with a correctable error (08 R200), and the WS granules whose checksum column a fault has upset (10 R256). -/
structure Buf where
  mem : Memory
  marks : Tab Origin
  ue : List Nat
  ce : List Nat
  upset : List Nat
  deriving DecidableEq, Repr, Inhabited

/-- The buffers with an owner, by the code of 08 R202; `dm` is BUF 4 of R206. -/
inductive BufId where
  | ab | ws | xs | ns | dm
  deriving DecidableEq, Repr, Inhabited

/-- The state of a power unit (08 R203): a waking unit carries the core cycle in which it becomes AWAKE. -/
inductive UnitSt where
  | awake
  | retained
  | waking (at_ : Nat)
  deriving DecidableEq, Repr, Inhabited

/-- A write of bytes into a buffer, with the mark its sectors receive (04 R93). -/
structure BWrite where
  buf : BufId
  addr : Nat
  bytes : List Byte
  mark : Option Origin
  deriving DecidableEq, Repr, Inhabited

/-- Which event makes a delayed write effective. -/
inductive DKind where
  /-- VST's elements (08 R217). -/
  | stream
  /-- ACCWR, ACCZ, ACCLD (07 R193, 10 R272, R275). -/
  | buffer
  /-- XRECV's elements (06 R157). -/
  | exchange
  /-- A matrix operation's tile elements (10 R264). -/
  | matrix
  /-- A granule of WLD (10 R271). -/
  | granule
  /-- ACCST's bytes or its lent registers (10 R273, R274). -/
  | accst
  deriving DecidableEq, Repr, Inhabited

/-- A delayed write: the core cycle at whose end or beginning it takes effect, its bytes, the scale-row words of a
granule and the registers of a lent bank it delivers; the tile sectors whose mark it clears. -/
structure DWrite where
  due : Nat
  kind : DKind
  writes : List BWrite
  /-- AB bytes of which only some bits are written: address, value, the written bits (10 R273). -/
  bits : List (Nat × Byte × Byte)
  scales : List (Nat × BitVec 16)
  regs : List (Nat × VReg)
  /-- The rows of a matrix operation whose block sums the checksum column contradicts (10 R279). -/
  bad : Bool
  /-- The program counter and the slot word of its instruction, and the origins that the instruction has made by kind (14 R365; 04
  R94). -/
  loc : Nat
  insn : Nat
  made : Tab Origin
  /-- The first 16 bytes of its operands (14 R365). -/
  opnd : Nat
  /-- Its place in the order of issue, in a segment's signature (14 R379). -/
  key : Nat
  deriving DecidableEq, Repr, Inhabited

/-! ## Streams, the exchange and the matrix array -/

/-- A tensor entry with the format descriptor it names, as an operation captured them (08 R209). -/
structure Tens where
  idx : Nat
  ent : BitVec 512
  fmt : BitVec 32
  deriving DecidableEq, Repr, Inhabited

/-- Where an element of a pop lies in AB, or the trap that its consumer takes: cause, TVAL, TORIG (08 R218). -/
inductive EPlace where
  | at_ (addr : Nat)
  | trap (cause : Nat) (val : Word) (org : Origin)
  deriving DecidableEq, Repr, Inhabited

/-- A pop that a load generator holds (08 R217): its number, its bytes and tags as they were fetched, where its elements lay,
and the first address found engine-owned since its fetch. -/
structure Pop where
  n : Nat
  /-- F(n). -/
  at_ : Nat
  r : VReg
  places : List EPlace
  owner : Option Nat
  deriving DecidableEq, Repr, Inhabited

/-- A stream generator with a pattern (08 R215-R218). -/
structure Stream where
  rec_ : BitVec 512
  tens : Tens
  itens : Option Tens
  /-- S: the core cycle of the SPAT or SRST. -/
  start : Nat
  /-- Pops delivered or taken so far. -/
  pos : Nat
  /-- V(n - 4) .. V(n - 1): the core cycles of the latest VLDs, newest first. -/
  vtimes : List Nat
  pops : List Pop
  /-- Of the next pop, where level 3 is indirect: the core cycle in which its index elements were read, and what they give (08
  R217). -/
  ahead : Option (Nat × List EPlace)
  /-- The program counter and the slot word of its SPAT or SRST, for the origin entries of its fetches (14 R365). -/
  loc : Nat
  insn : Nat
  /-- The first 16 bytes of that instruction's operands, and the origins that its fetches have made by kind (14 R365; 04 R94). -/
  opnd : Nat
  made : Tab Origin
  deriving DecidableEq, Repr, Inhabited

/-- An exchange entry (06 R156-R158). -/
inductive XState where
  | flying | arrived | matched
  deriving DecidableEq, Repr, Inhabited

/-- An entry of the exchange inbox. -/
structure XEntry where
  /-- The sender's coordinate s x 64 + q. -/
  src : Nat
  /-- The arrival DCYC. -/
  arr : Nat
  r : VReg
  st : XState
  deriving DecidableEq, Repr, Inhabited

/-- What a scoreboard mark covers (10 R276). -/
inductive MKind where
  | tileW | tileR | granW | granR | abR | abW
  deriving DecidableEq, Repr, Inhabited

/-- A scoreboard mark: tiles or granules lo to hi, or AB bytes lo to hi, for the core cycles up to `last`. -/
structure MMark where
  kind : MKind
  lo : Nat
  hi : Nat
  last : Nat
  /-- The mark is of an MMA, MMAG or MCONV, which may be chained (10 R277). -/
  fold : Bool
  deriving DecidableEq, Repr, Inhabited

/-- The matrix array's own state. -/
structure Mat where
  /-- First core cycle in which the array, the store path, the WS port is free again. -/
  arrayFree : Nat
  storeFree : Nat
  wldFree : Nat
  /-- MWAIT: the first core cycle in which a program bundle may issue (10 R278). -/
  hold : Nat
  marks : List MMark
  /-- The gather state (10 R267). -/
  ai : Nat
  apos : Nat
  ci : Nat
  cpos : Nat
  left : Nat
  /-- The CSET record and the input tensor (10 R269). -/
  cset : Option (BitVec 512 × Tens)
  lentB : Bool
  lentD : Bool
  deriving DecidableEq, Repr, Inhabited

/-! ## Engines -/

/-- An operation queued at an engine port: what its EGO captured (08 R209, 09 R243). -/
structure Eop where
  id : BitVec 32
  code : Nat
  cui : Bool
  sh : Tab Word
  tens : List Tens
  /-- The owner regions it covers, as keys of `Kern.own`. -/
  regions : List Nat
  /-- The port sequence number before which every port access must have been performed (13 R347). -/
  pseq : Nat
  /-- The core cycle of the EGO. -/
  at_ : Nat
  /-- A segment holds it (14 R376). -/
  held : Bool
  started : Bool
  /-- Completed, its identifier not yet covered by XDONE (11 R283). -/
  done : Bool
  deriving DecidableEq, Repr, Inhabited

/-- A byte an engine has read from device memory, with the mark of its sector. -/
structure CByte where
  b : Byte
  mark : Option Origin
  deriving DecidableEq, Repr, Inhabited

/-- A device-memory write an engine has still to place at a line queue. -/
structure EWrite where
  va : Nat
  bytes : List Byte
  mark : Option Origin
  deriving DecidableEq, Repr, Inhabited

/-- A device-memory read an engine has still to place at a line queue: the key under which its bytes are kept, its
address and its length within one line. -/
structure EWant where
  key : Nat
  va : Nat
  len : Nat
  deriving DecidableEq, Repr, Inhabited

/-- The device-memory side of a running engine operation (13 R332, R333): bytes read, by key (a stream offset of a copy,
else the virtual address); reads and writes not yet placed at a line queue. What is placed and not yet performed stands in
`State.lines`. -/
structure EMem where
  cache : Tab CByte
  want : List EWant
  wq : List EWrite
  /-- A marking write met a PCLEAN page: the origin, and the address that it would have marked (09 R248, 12 R320). -/
  pclean : Option Origin
  refused : Nat
  deriving DecidableEq, Repr, Inhabited

/-- The cursor of a running operation: a step or phase number, counters, and collected bytes or words, used by each
engine as its module says. -/
structure Cursor where
  phase : Nat
  i : Nat
  j : Nat
  n : Nat
  m : Nat
  acc : Nat
  words : List Nat
  bytes : List Byte
  /-- Destination sectors that the operation has marked. -/
  marks : Tab Origin
  /-- Set when the operation has ended: status, reason or origin. -/
  fin : Option (Nat × Nat)
  deriving DecidableEq, Repr, Inhabited

/-- An output that an operation has computed: the work position that writes it, its place, its bytes or its mark, and the two
counts of the operation before it. -/
structure EOut where
  at_ : Nat
  buf : BufId
  addr : Nat
  bytes : List Byte
  mark : Option Origin
  n1 : Nat
  n2 : Nat
  deriving DecidableEq, Repr, Inhabited

/-- A running engine operation. -/
structure Run where
  op : Eop
  mem : EMem
  cur : Cursor
  /-- Outputs computed and not yet written, in order; marks of device sectors on their way to a line queue. -/
  outs : List EOut
  sent : List EOut
  /-- Origins the operation has made, by kind: at most one of each (04 R94). -/
  origins : Tab Origin
  deriving DecidableEq, Repr, Inhabited

/-- A port of an engine: shadow set, identifiers, queue, running operation, status records of ERD by index, and
POISON reports not yet taken (06 R162). -/
structure Port where
  sh : Tab Word
  last : BitVec 32
  xdone : BitVec 32
  q : List Eop
  /-- The running operations: more than one only for a PUPD beside an EVAL, and for links of different ports. -/
  runs : List Run
  recs : Tab Word
  reports : List (BitVec 32 × Origin)
  deriving DecidableEq, Repr, Inhabited

/-- The section that a frame of the circuit engine holds, with the counts of its descriptor (11 R282, R285). -/
structure Frame where
  sec : Nat
  nnode : Nat
  nstep : Nat
  nlb : Nat
  nob : Nat
  nfl : Nat
  nsp : Nat
  deriving DecidableEq, Repr, Inhabited

/-- A section fetch under way (11 R298): the section, its frame, its descriptor once it has been read with the offsets
of its node words and lists, and whether a check of 11 R286 has failed. -/
structure Fetch where
  sec : Nat
  right : Bool
  desc : Option (Frame × Nat × Nat)
  bad : Bool
  deriving DecidableEq, Repr, Inhabited

/-- The circuit engine's state beyond its port (11 R282). -/
structure Circ where
  loaded : Bool
  /-- The object's header, 64 bytes, and the object tensor. -/
  header : BitVec 512
  obj : Option Tens
  spill : Option Tens
  /-- ACT: true is side B. -/
  act : Bool
  /-- The section each frame holds. -/
  frame0 : Option Frame
  frame1 : Option Frame
  fetch : Option Fetch
  /-- The running EVAL's side, true for B; its section runs in frame 1. -/
  side : Bool
  right : Bool
  /-- Staging buffers of fills and spills: 64-byte entries by spill index. -/
  fills : Tab (BitVec 512)
  spills : Tab (BitVec 512)
  /-- Vanish bits, first vanishing nodes, and the values to land of the running section: by step and slot. -/
  vmask : BitVec 16
  first : Tab Nat
  pmask : BitVec 16
  landing : List (Nat × Nat × BitVec 512)
  /-- TIME at which the running EVAL, and its group, began; groups, vanished, poisoned lanes, first row. -/
  evalAt : Nat
  groupAt : Nat
  groups : Nat
  vanished : Nat
  poisoned : Nat
  firstRow : Option Nat
  /-- Sums of the newest completed EVAL, for CSTAT: words 0 to 7 (11 R308). -/
  stat : List Word
  deriving DecidableEq, Repr, Inhabited

/-! ## Segments -/

/-- An operation that a segment holds at the core (14 R376). -/
inductive HeldOp where
  | ego (e : Nat) (id : BitVec 32)
  /-- The port sequence number before which every access must have been performed (15 R400). -/
  | qpost (q : Nat) (bytes : List Byte) (pseq : Nat)
  | bwph (v : BitVec 42)
  deriving DecidableEq, Repr, Inhabited

/-- What the checkpoint bank keeps of a kernel (14 R375): everything a yield switch saves. -/
structure Ckpt where
  regs : Tab Reg
  preds : Tab PredReg
  masks : Tab MaskReg
  vregs : Tab VReg
  lat : Tab LVal
  latSaved : Tab LVal
  spr : Spr
  ctl : Ctl
  fmts : Tab (BitVec 32)
  tdt : Tab (BitVec 512)
  streams : Tab Stream
  units : Tab UnitSt
  mat : Mat
  inbox : List XEntry
  /-- The count of core cycles, which a rewind sets back, and what was in flight. -/
  cyc : Nat
  flights : List Flight
  dw : List DWrite
  deriving DecidableEq, Repr, Inhabited

/-- The open segment of a core (14 R374-R379). -/
structure Seg where
  /-- The bundle that opened it is a rendezvous (06 R154). -/
  rdv : Bool
  /-- A CKPT bundle opened it as it issued; else the restart or the resumption before its first bundle did. -/
  byBundle : Bool
  ck : Ckpt
  /-- AB lines and XS tiles first written in the segment, with the writes that restore them; WLD granules count 32 lines. -/
  lines : List Nat
  tiles : List Nat
  undo : List BWrite
  undoScales : List (Nat × BitVec 16)
  undoMarks : List (BufId × Nat × Option Origin)
  /-- The uncorrectable 8-byte words among them (08 R200). -/
  undoUe : List (BufId × Nat)
  /-- Held operations, oldest first, beside the MST and RED held in the store buffer. -/
  held : List HeldOp
  heldStores : Nat
  /-- Origin indices obtained, oldest first; the number already handed out in a rerun. -/
  origins : List Origin
  given : Nat
  count : Nat
  /-- What the segment has written back and held so far, in order of issue: the place of its instruction in that order and its numbers
(14 R379). -/
  trace : List (Nat × List Nat)
  sanitise : Nat
  /-- An XSEND or XRECV has issued in it. -/
  exchange : Bool
  /-- The core's port sequence at its opening: loads below it were issued before the segment. -/
  pseq : Nat
  /-- The rerun under way: 0 none, 1 first, 2 second, 3 both agreed and the commit to come; the first run's count and signature. -/
  rerun : Nat
  count1 : Nat
  sig1 : Word
  /-- A detected pipeline error is to be handled. -/
  error : Bool
  deriving DecidableEq, Repr, Inhabited

/-! ## A kernel on a core -/

/-- The resources of a launch (15 R391). -/
structure Res where
  ab : Nat
  ws : Nat
  ns : Nat
  tdt : Nat
  xs : Nat
  is : Nat
  st : Nat
  copy : Nat
  deriving DecidableEq, Repr, Inhabited

/-- A kernel of a launch on one core: identity, registers, control, buffers and its engines' ports. -/
structure Kern where
  /-- launch x 256 + n. -/
  kid : Nat
  launch : Nat
  /-- The linear index n = s x Q + q (01 R13). -/
  n : Nat
  /-- The core's place die x 64 + cluster x 8 + core. -/
  core : Nat
  /-- Its domain: launch x 4 + die. -/
  dom : Nat
  ctx : Nat
  /-- S and Q of the gang. -/
  gs : Nat
  gq : Nat
  res : Res
  /-- ISW and RESIL of the launch. -/
  isw : Bool
  resil : Bool
  /-- The count of core cycles in which the core was not stopped. -/
  cyc : Nat
  regs : Tab Reg
  preds : Tab PredReg
  masks : Tab MaskReg
  vregs : Tab VReg
  /-- The valid latches. -/
  lat : Tab LVal
  /-- The saved latch image (05 R110). -/
  latSaved : Tab LVal
  flights : List Flight
  ctl : Ctl
  spr : Spr
  fmts : Tab (BitVec 32)
  tdt : Tab (BitVec 512)
  streams : Tab Stream
  ab : Buf
  ws : Buf
  xs : Buf
  ns : Buf
  /-- Scale-row words: granule x 128 + entry (10 R256). -/
  scales : Tab (BitVec 16)
  /-- Owner regions not owned by CORE: buffer x 1024 + region, holding engine + 1 (08 R211). -/
  own : Tab Nat
  /-- Power units not AWAKE: buffer x 16 + unit (08 R203). -/
  units : Tab UnitSt
  dw : List DWrite
  inbox : List XEntry
  mat : Mat
  copy0 : Port
  copy1 : Port
  copy2 : Port
  copy3 : Port
  key : Port
  circP : Port
  link : Port
  circ : Circ
  seg : Option Seg
  deriving DecidableEq, Repr, Inhabited

/-! ## Cores, domains, sites -/

/-- The kinds of a page (09 R229). -/
inductive PageKind where
  | so | rc | uo
  deriving DecidableEq, Repr, Inhabited

/-- A translation (09 R229): the virtual address, the physical address and the leaf's flags. -/
structure Trans where
  va : Nat
  pa : Nat
  kind : PageKind
  pclean : Bool
  sysatom : Bool
  enc : Bool
  rd : Bool
  w : Bool
  deriving DecidableEq, Repr, Inhabited

/-- What a port access is (05 R132, 13 R332). -/
inductive POp where
  | load
  | store
  | red (op : Nat)
  | amo (op : Nat)
  /-- 0 FULL, 1 STORE, 2 LOAD. -/
  | fence (kind : Nat)
  deriving DecidableEq, Repr, Inhabited

/-- How far a port access has come. -/
inductive PState where
  /-- In the store buffer or among the outstanding loads. -/
  | waiting
  /-- At its line queue. -/
  | queued
  /-- Performed; a load's or an AMO's data has not landed yet. -/
  | performed
  deriving DecidableEq, Repr, Inhabited

/-- A store within a store-buffer entry (13 R346): its sequence number, address, width, bytes and poison. -/
structure Part where
  seq : Nat
  va : Nat
  w8 : Bool
  data : Word
  poison : Option Origin
  f : Bool
  deriving DecidableEq, Repr, Inhabited

/-- A port access of a core, in issue order (13 R332). -/
structure PItem where
  seq : Nat
  kid : Nat
  op : POp
  va : Nat
  /-- The width is 8 bytes. -/
  w8 : Bool
  data : Word
  /-- The stored value is poison, with its origin; F = 1 (05 R135). -/
  poison : Option Origin
  f : Bool
  /-- CAS's compare value and its origin when it is tagged. -/
  cmp : Word
  cmpPoison : Option Origin
  acq : Bool
  rel : Bool
  scope : Nat
  /-- DCYC of issue; absent in a handler. -/
  stamp : Option Nat
  /-- The destination register of MLD and AMO. -/
  dst : Option Nat
  tr : Option Trans
  st : PState
  /-- Held until the segment commits (05 R139). -/
  held : Bool
  /-- The data a performed load returned, and its origin when it is poison. -/
  result : Option (Word × Option Origin)
  /-- The program counter and the slot word of its instruction, for an origin entry (14 R365). -/
  loc : Nat
  insn : Nat
  /-- The earlier stores that have merged into this one, oldest first (13 R346). -/
  under : List Part
  /-- TIME of issue: misses queue for the page walker in order of arrival (09 R231). -/
  came : Nat
  /-- The origins that it has made, by kind: one of each (04 R94). -/
  made : Tab Origin
  /-- The first 16 bytes of its instruction's operands (14 R365), and its place in the order of issue (14 R379). -/
  opnd : Nat
  key : Nat
  deriving DecidableEq, Repr, Inhabited

/-- A core's parts that no single kernel owns. -/
structure Core where
  port : List PItem
  /-- The next sequence number of its port. -/
  pseq : Nat
  /-- IS, by bundle address; 0 where nothing is listed. -/
  is : Tab (BitVec 512)
  /-- Bundle addresses with an uncorrectable word (08 R200). -/
  isUe : List Nat
  /-- Bundle addresses with one wrong bit, which the next fetch corrects (08 R200). -/
  isCe : List Nat
  /-- Reserved origin indices, by the context whose log they are of (14 R366). -/
  resv : Tab (List Origin)
  retired : Bool
  /-- Management has armed single step on the core (14 R360, 16 R421). -/
  stepArm : Bool
  /-- Bundles that an EXPAND has overwritten and no IFENCE has followed, as they stood: a fetch may still return them (03 R58,
  06 R146). -/
  old : Tab (BitVec 512)
  deriving DecidableEq, Repr, Inhabited

/-- Where the front-end has placed a kernel in its cores' buffers (15 R393): the starts of its partitions in units of 4 KiB,
granules, banks and 64 KiB, and of its save area in units of 4 KiB once it has one. -/
structure DPlace where
  ab : Nat
  ws : Nat
  xs : Nat
  ns : Nat
  save : Option Nat
  deriving DecidableEq, Repr, Inhabited

/-- A domain of a launch (06 R152-R155, R161; 15 R395-R398). -/
structure Dom where
  launch : Nat
  die : Nat
  line : Nat
  site : Nat
  q : Nat
  dcyc : Nat
  /-- The window-broken flag. -/
  broken : Bool
  /-- Cycles until the restart after the last vote. -/
  restart : Option Nat
  /-- The DCYC at which a freeze stops the partners, and of the earliest trap. -/
  freeze : Option (Nat × Nat)
  /-- Cycles until the freeze is released, once every trapped core has executed RFT. -/
  release : Option Nat
  /-- Throttled cycles still to go. -/
  throttle : Nat
  /-- A hard stop holds it. -/
  hard : Bool
  /-- A pre-emption request is in force; it is full. -/
  preempt : Bool
  full : Bool
  /-- Every core started (01 R19 step 8). -/
  started : Bool
  declared : Nat
  passed : Nat
  ran : Nat
  overran : Bool
  place : DPlace
  /-- The DCYC at which the first core stopped at a pre-emption point; a later core stopped at another (06 R169). -/
  stopAt : Option Nat
  stagger : Bool
  deriving DecidableEq, Repr, Inhabited

/-- A site: the domains resident on a set of cores, the one that runs, the slice counter, the cycles a switch still
takes, and the domain that a decision has chosen and that is still to be switched in (15 R393-R397). -/
structure Site where
  doms : List Nat
  running : Option Nat
  slice : Nat
  switch : Nat
  chosen : Option Nat
  deriving DecidableEq, Repr, Inhabited

/-! ## Device memory -/

/-- Who placed an entry at a line queue. -/
inductive Agent where
  | port (core seq : Nat)
  /-- An operation of an engine port, by its identifier. -/
  | engine (k e id : Nat)
  /-- A request of a source node, by its number in `State.reqs`. -/
  | source (node req : Nat)
  | hub
  deriving DecidableEq, Repr, Inhabited

/-- An entry of a line queue (13 R332). -/
structure LEntry where
  agent : Agent
  write : Bool
  /-- Its virtual address as the agent knows it, and its physical one. -/
  va : Nat
  pa : Nat
  len : Nat
  bytes : List Byte
  mark : Option Origin
  tr : Trans
  ctx : Nat
  deriving DecidableEq, Repr, Inhabited

/-- A requester held by a replayable fault (09 R232). -/
inductive Requester where
  | port (core : Nat)
  | engine (k e : Nat)
  | queue (q : Nat)
  /-- The placement of a launch, whose queue is the requester (15 R392). -/
  | placement (l : Nat)
  /-- The link-engine port through which another package's PUTs arrive, by that package's node (16 R415). -/
  | remote (via src : Nat)
  deriving DecidableEq, Repr, Inhabited

/-- A pending replayable fault. -/
structure RFault where
  ctx : Nat
  va : Nat
  code : Nat
  req : Requester
  /-- Of a core's port, the number of the first request that it holds (05 R138); of a queue, 1 for the write of a completion word (15
  R388), 0 for another access. -/
  from_ : Nat
  deriving DecidableEq, Repr, Inhabited

/-- A miss of an engine that waits for its die's page walker (09 R231): the kernel, its engine, the context, the address, whether it
writes, and the TIME of its arrival. -/
structure EMiss where
  kid : Nat
  engine : Nat
  ctx : Nat
  va : Nat
  write : Bool
  came : Nat
  deriving DecidableEq, Repr, Inhabited

/-- A cached leaf translation of a cluster (09 R231): page base, page size, leaf entry. -/
structure TlbEntry where
  cluster : Nat
  ctx : Nat
  base : Nat
  size : Nat
  leaf : Word
  deriving DecidableEq, Repr, Inhabited

/-- The power states of a pan group (09 R234). -/
inductive PanSt where
  | deep | retain | idle | active | waking
  deriving DecidableEq, Repr, Inhabited

/-- A Saltern map entry with what governs its next change (09 R234-R238). -/
structure Pan where
  hotcnt : Nat
  scrubOwed : Bool
  init : Bool
  alloc : Bool
  st : PanSt
  /-- TIME of the latest request, and TIME at which a wake or an initialisation ends. -/
  touched : Nat
  ready : Nat
  /-- HOTCNT fell to 0 by a BWPHASE write: RETAIN when the queues are empty (R236). -/
  cold : Bool
  /-- The context under whose key ALLOC wrote the integrity tags, as `encTag` gives it (09 R235). -/
  enc : Nat
  deriving DecidableEq, Repr, Inhabited

/-! ## Contexts, queues, launches -/

/-- An origin-log entry that the writer has still to fill (14 R365, R367). -/
structure OFill where
  ctx : Nat
  idx : Origin
  bytes : List Byte
  deriving DecidableEq, Repr, Inhabited

/-- A context (15 R385, 16 R412, R420; 14 R364). -/
structure Ctx where
  en : Bool
  rootg : BitVec 5
  rootoff : BitVec 35
  logaddr : Word
  saveaddr : Word
  savesize : Word
  bwphase : BitVec 42
  /-- NEXT, OVFCNT, MISSCNT, SANCNT, LASTTIME of the log header. -/
  next : Nat
  ovf : Nat
  miss : Nat
  san : Nat
  lastTime : Nat
  kemct : Tab Word
  keySt : Nat
  keyid : Word
  keys : List Byte
  deriving DecidableEq, Repr, Inhabited

/-- The states of a queue (15 R386). -/
inductive QState where
  | unbound | running | stopped | held
  deriving DecidableEq, Repr, Inhabited

/-- A 128-byte packet in a queue, and for a QPOST the core and its port sequence before which every port access
must have been performed (15 R400). -/
structure Packet where
  bytes : List Byte
  after : Option (Nat × Nat)
  /-- A QPOST packet that met a full spill ring: it completes with QFULL in its turn (15 R386). -/
  full : Bool
  /-- Its place in the spill ring, while it waits there. -/
  ring : Option Nat
  deriving DecidableEq, Repr, Inhabited

/-- How far the packet that the front-end has taken has come. -/
inductive PkPhase where
  /-- Taken, its own event not yet run. -/
  | taken
  /-- In effect: the event that ends it is awaited. -/
  | busy
  /-- A SIGNAL ADD that is no single entry (13 R345): its accesses done so far, and what they read. -/
  | steps (n acc : Nat)
  /-- Ready to complete: status, detail, value. -/
  | done (status detail value : Nat)
  deriving DecidableEq, Repr, Inhabited

/-- A packet under way. A queue can have several: LAUNCHes overtaken by CONC packets (15 R390). -/
structure PkRun where
  bytes : List Byte
  phase : PkPhase
  /-- The launch a LAUNCH packet made. -/
  launch : Option Nat
  /-- It has a place in queue order: RETIRED counts the completed prefix. -/
  finished : Bool
  /-- The digest of the object that a LOAD has registered: it extends the measurement chain when the LOAD completes (16 R418). -/
  digest : Option (List Byte)
  deriving DecidableEq, Repr, Inhabited

/-- A hardware queue. -/
structure Queue where
  st : QState
  ctx : Nat
  rank : Nat
  retired : BitVec 32
  fifo : List Packet
  spill : List Packet
  ringbase : Word
  ringcap : Word
  /-- How many packets have gone to the spill ring since the queue was bound. -/
  ringnext : Nat
  cur : List PkRun
  /-- Handles held, with the object each names. -/
  handles : Tab Nat
  /-- WAITVAL is to read its word again (15 R402). -/
  reread : Bool
  /-- The packets of the spill ring, by number, whose writes still wait at a pan (15 R386; 09 R235, R236). -/
  owed : List Nat
  /-- The place, among the packets taken, of the one whose completion word has met a fault: its completion is held, and goes first once
  the host resumes it (15 R388). -/
  heldAt : Option Nat
  deriving DecidableEq, Repr, Inhabited

/-- A registered code object (15 R403, R405). -/
structure Obj where
  ctx : Nat
  objaddr : Nat
  database : Nat
  refs : Nat
  /-- The 128-byte header and the kernel table. -/
  header : List Byte
  ktab : List Byte
  deriving DecidableEq, Repr, Inhabited

/-- The life of a launch (15 R392-R399). -/
inductive LState where
  | waiting
  | placed
  | running
  /-- Pre-empted: its cores are stopping; then saved. -/
  | stopping
  | saved
  | ended
  deriving DecidableEq, Repr, Inhabited

/-- A launch. -/
structure Launch where
  q : Nat
  ctx : Nat
  obj : Nat
  kidx : Nat
  gs : Nat
  gq : Nat
  resil : Bool
  conc : Bool
  stoperr : Bool
  pstore : Bool
  isw : Bool
  res : Res
  yfirst : Nat
  argaddr : Nat
  argsize : Nat
  st : LState
  /-- The core of each linear index. -/
  cores : List Nat
  /-- The TIME since which it waits for a place: that of its packet, or of its save (15 R399). -/
  since : Nat
  placedAt : Nat
  /-- The kernels of a saved launch, their domains, and the instruction store of each kernel's core. -/
  saved : List Kern
  savedDoms : Tab Dom
  savedIs : List (Tab (BitVec 512))
  deriving DecidableEq, Repr, Inhabited

/-! ## Links, security, management, the outside world -/

/-- A link message on its way into a landing buffer (16 R408, R415): bytes and, per 32-byte sector, its mark. -/
structure LMsg where
  port : Nat
  src : Nat
  tag : Nat
  bytes : List Byte
  marks : List (Option Origin)
  /-- The sending port context, when a core of this package sent it. -/
  from_ : Option (Nat × BitVec 32)
  /-- It is a PUT of this package (16 R415). -/
  put : Bool
  deriving DecidableEq, Repr, Inhabited

/-- A port of a die's link engine (16 R409). -/
structure LinkPort where
  /-- Messages sent to it and not yet arrived; messages waiting in the landing buffer. -/
  wire : List LMsg
  landing : List LMsg
  /-- Its sending side has been stopped by the other end's PAUSE. -/
  paused : Bool
  /-- Its receiving side has sent PAUSE and not yet RESUME. -/
  held : Bool
  down : Bool
  /-- Flits the sender has to send again. -/
  replays : Nat
  deriving DecidableEq, Repr, Inhabited

/-- A posted receive: kernel, port, node, tag, operation (16 R415). -/
structure Recv where
  die : Nat
  port : Nat
  k : Nat
  id : BitVec 32
  node : Nat
  tag : Nat
  /-- Cycles waited without a matching message. -/
  waited : Nat
  deriving DecidableEq, Repr, Inhabited

/-- A host's or a peer's memory request in progress (16 R411): how many line accesses are still to be performed,
the bytes read by offset, and whether an uncorrectable sector was met. -/
structure HReq where
  /-- The port it came through: die x 5 + port. -/
  via : Nat
  src : Nat
  tag : Nat
  write : Bool
  len : Nat
  left : Nat
  data : Tab Byte
  poisoned : Bool
  /-- The origin of a MEMWR with POISON, once taken (14 R369). -/
  org : Option Origin
  /-- An access of it found its group freed (09 R235). -/
  fault : Bool
  ctx : Nat
  /-- Of a fabric atomic (13 R345): its operation as R136 numbers them, its operands, and that its writes are under way. -/
  amo : Option (Nat × List Byte)
  back : Bool
  deriving DecidableEq, Repr, Inhabited

/-- A message to the host: EVENT or RESP (16 R411, R413), as bytes of its payload. -/
inductive HostOut where
  | event (code ctx : Nat) (data : Nat) (extra : Nat) (word : List Byte)
  | resp (src tag status : Nat) (poison : Bool) (data : List Byte)
  /-- A message of the link engine to another node (16 R415): port, node, KIND, tag, context, address. -/
  | link (port node kind tag ctx addr : Nat) (bytes : List Byte) (marks : List (Option Origin))
  /-- What management has read over I3C (16 R421): power, temperature, and the four counts. -/
  | mgmt (power temperature : Nat) (counts : List Nat)
  deriving DecidableEq, Repr, Inhabited

/-- A message of a host or a peer (16 R408, R411), its flits put together, and the port it came through: die x 5 + port.
KIND is that of R411. The manual gives no KIND and no form for a fabric atomic (13 R345), and none by which a PUT of another package
(16 R415) differs from a host's MEMWR: the world says which a message is. -/
structure Msg where
  via : Nat
  kind : Nat
  src : Nat
  tag : Nat
  ctx : Nat
  addr : Nat
  len : Nat
  poison : Bool
  data : List Byte
  /-- A PUT of another package's link engine. -/
  put : Bool
  /-- A fabric atomic, with its operation as R136 numbers them. -/
  amo : Option Nat
  deriving DecidableEq, Repr, Inhabited

/-- The management settings of 16 R421. -/
inductive MgmtParam where
  | coldIdle
  | scrubInterval
  | preemptWait
  | linkTo
  deriving DecidableEq, Repr, Inhabited

/-- A command of management over I3C (16 R421). -/
inductive Mgmt where
  | nodeid (v : BitVec 17)
  | claim (debug brk : Bool)
  | step (core : Nat) (on : Bool)
  | hardStop (t : Nat) (launches : List Nat)
  | set (p : MgmtParam) (v : Nat)
  | service (core : Nat)
  deriving DecidableEq, Repr, Inhabited

/-- A physical fault of the world (05 R111; 08 R200; 14 R368; 16 R409), to strike at the next opportunity. -/
inductive Soft where
  /-- The next result of the slot on the kernel has these bits of its primary flipped. -/
  | result (k slot : Nat) (flip : VBits)
  deriving DecidableEq, Repr, Inhabited

/-- An uncontained fault to be handled (14 R381-R383): context, code, kernel, TCAUSE, TVAL, TORIG, TPC, signatures. -/
structure UFault where
  ctx : Nat
  code : Nat
  k : Option Nat
  cause : Nat
  tval : Word
  torig : Origin
  tpc : BitVec 14
  sig1 : Word
  sig2 : Word
  deriving DecidableEq, Repr, Inhabited

/-- A PANCTL message in progress (16 R411): the message's sender and tag, whether it allocates, its groups. -/
structure PanReq where
  src : Nat
  tag : Nat
  alloc : Bool
  groups : Nat
  /-- The port it came through, and its context. -/
  via : Nat
  ctx : Nat
  deriving DecidableEq, Repr, Inhabited

/-- The hub and the package. -/
structure Hub where
  time : Nat
  up : Bool
  verified : Bool
  linksUp : Bool
  timeSynced : Bool
  nodeid : BitVec 17
  coldIdle : Nat
  scrubInterval : Nat
  preemptWait : Nat
  linkTo : Nat
  debug : Bool
  brk : Bool
  /-- Hard stops to come: TIME and launches (06 R168). -/
  hardStops : List (Nat × List Nat)
  /-- Pre-emption requests to come: TIME, domain (06 R169); launches to pre-empt fully (15 R399). -/
  preempts : List (Nat × Nat)
  victims : List Nat
  pwrctl : Nat
  grants : List Nat
  nextGrant : Nat
  nonce : Tab Word
  attBusy : Bool
  attReady : Bool
  attFail : Bool
  report : List Byte
  chain : List Byte
  ncode : Nat
  scrubTable : List (Nat × Bool)
  nextScrub : Nat
  /-- Counts of management: corrected, uncorrectable, tag failures, discarded flits. -/
  counts : Tab Nat
  /-- BWPHASE writes on their way to the hub: context, value (09 R241). -/
  bwq : List (Nat × BitVec 42)
  outOfService : List Nat
  dieResv : Tab (List Origin)
  /-- The number of the next launch. -/
  nextLaunch : Nat
  panReqs : List PanReq
  /-- The keys by which lines have been written, by what stands as their integrity tag (16 R419, R420). -/
  keyring : Tab (List Byte)
  deriving DecidableEq, Repr, Inhabited

/-- The bundle in mid-issue (06 R140): its kernel, its bits, its address, the next slot to run, and what its slots
have decided so far. -/
structure Issue where
  active : Bool
  kid : Nat
  bundle : BitVec 512
  addr : BitVec 11
  slot : Nat
  /-- SLOT of this issue (03 R60). -/
  first : Nat
  /-- A taken transfer's target, 0x800 for a return past the last bundle; extra cycles before the next bundle. -/
  target : Option (BitVec 12)
  gap : Nat
  wait : Wait
  halt : Bool
  /-- RFT was executed and found this program counter in TPC. -/
  rft : Option (BitVec 14)
  /-- The origins that the slot's instruction has made, by kind: one of each (04 R94). -/
  made : Tab Origin
  /-- The first 16 bytes of the operands that the slot's instruction has read, for an origin entry (14 R365). -/
  opnd : Nat
  deriving DecidableEq, Repr, Inhabited

/-- The whole package. -/
structure State where
  issue : Issue
  kerns : List Kern
  cores : Tab Core
  doms : Tab Dom
  sites : Tab Site
  launches : Tab Launch
  queues : Tab Queue
  ctxs : Tab Ctx
  objs : Tab Obj
  pans : Tab Pan
  /-- Device memory by group x 12 GiB + offset. -/
  mem : Memory
  marks : Tab Origin
  ue : List Nat
  /-- Sectors with an error that the ECC corrects at the next access (14 R368, R371). -/
  ce : List Nat
  /-- Lines whose integrity tag differs from what ALLOC wrote, by line number: 0 for none, else the context and key
  under which the line was written (16 R419). -/
  encTag : Tab Nat
  lines : Tab (List LEntry)
  ingress : Tab (List LEntry)
  tlb : List TlbEntry
  /-- Misses of engines that wait for a page walker. -/
  emiss : List EMiss
  rfaults : List RFault
  ufaults : List UFault
  fills : List OFill
  links : Tab LinkPort
  recvs : List Recv
  /-- The round-robin position of each cluster's key engine: the kernel served last. -/
  keyPos : Tab Nat
  hub : Hub
  /-- Memory requests of source nodes in progress. -/
  reqs : Tab HReq
  hostIn : List Msg
  /-- PUTs of other packages that a replayable fault holds, with those that came after them (16 R415). -/
  putsHeld : List Msg
  mgmtIn : List Mgmt
  soft : List Soft
  out : List HostOut
  /-- Choices made beforehand, oldest first: an event, or a clock cycle. The free choices decide when it is empty. -/
  script : List (Option Instr)
  /-- The number of free choices and values taken so far. -/
  choices : Nat
  deriving DecidableEq, Repr, Inhabited

/-! ## Why a step can stop -/

/-- Why the machine stops with a fault. -/
inductive Fault where
  /-- Raised by LINE_PERFORM for an entry whose physical address lies outside the 384 GiB of device memory (09 R233):
  no translation gives one. Safe: the machine stops where the part has nothing to access. -/
  | noSuchAddress (pa : Nat)
  deriving DecidableEq, Repr, Inhabited

/-- Why the machine gives a step no meaning. -/
inductive Refusal where
  /-- Raised by an arm of `exec` whose instruction is not modelled yet. Safe: no next state is claimed. -/
  | notModelled (mnemonic : String)
  deriving DecidableEq, Repr, Inhabited

/-! ## Reset and launch values -/

/-- Zero, untagged, with valid check bits (05 R101). -/
def Reg.zero : Reg := ⟨0, false, false, 0, false⟩
/-- False and untagged (05 R103). -/
def PredReg.clear : PredReg := ⟨false, false, 0, false⟩
/-- p0 (05 R103). -/
def PredReg.p0 : PredReg := ⟨true, false, 0, true⟩
/-- Zero and untagged (07 R176). -/
def MaskReg.zero : MaskReg := ⟨0, 0, 0, 0⟩
/-- m0 (07 R176). -/
def MaskReg.m0 : MaskReg := ⟨BitVec.allOnes 64, 0, 0, BitVec.allOnes 64⟩
/-- Zero and untagged (07 R170). -/
def VReg.zero : VReg := ⟨0, 0, 0⟩
/-- No loop (06 R151). -/
def LoopReg.none : LoopReg := ⟨false, false, 0, 0, 0, 0, 0, false, false⟩
/-- The special registers at launch (04 R81, R84; 14 R354); PSTORE is the launch record's. -/
def Spr.launch (pstore : Bool) : Spr := ⟨0, 0, 0, 0, 0x780, pstore, 0, 0, 1, 0, [], 0⟩
/-- A core about to issue its entry bundle. -/
def Ctl.launch (entry : BitVec 11) : Ctl :=
  { pc := entry, slot := 0, gap := 0, tried := false, wait := .none, waitAt := 0, waitDcyc := 0, halted := false
    rstack := [], lc0 := .none, lc1 := .none, boundary := false
    handler := false, trapAt := 0, trapDcyc := 0, trapStamp := 0, froze := false, owed := none
    stale0 := false, stale1 := false, cuien := false, cui := [], occ0 := none, occ1 := none, stepOwed := false
    stopped := false, resumeAt := none, dead := false, segDue := none, pause := 0, xOwed := [], xlate := none, fetches := 0 }
/-- Zero-filled with valid ECC (08 R201). -/
def Buf.zero : Buf := ⟨[], [], [], [], []⟩
/-- The array idle, LEFT 0, no record (10 R267, R269). -/
def Mat.idle : Mat := ⟨0, 0, 0, 0, [], 0, 0, 0, 0, 0, none, false, false⟩
/-- A port at launch (09 R242, 12 R313). -/
def Port.idle : Port := ⟨[], 0, 0, [], [], [], []⟩
/-- The circuit engine at launch (11 R282). -/
def Circ.clear : Circ :=
  ⟨false, 0, none, none, false, none, none, none, false, false, [], [], 0, [], 0, [], 0, 0, 0, 0, 0, none, []⟩
/-- No resources. -/
def Res.zero : Res := ⟨0, 0, 0, 0, 0, 0, 0, 0⟩

/-- A kernel as it stands at its first issue (01 R19). -/
def Kern.fresh (l n core ctx gs gq : Nat) (res : Res) (isw resil pstore : Bool) (entry : BitVec 11) : Kern :=
  ⟨l * 256 + n, l, n, core, l * 4 + core / 64, ctx, gs, gq, res, isw, resil, 0, [], [], [], [], [], [], [],
   Ctl.launch entry, Spr.launch pstore, [], [], [], .zero, .zero, .zero, .zero, [], [], [], [], [], .idle,
   .idle, .idle, .idle, .idle, .idle, .idle, .idle, .clear, none⟩

/-- A core with an empty port. -/
def Core.idle : Core := ⟨[], 0, [], [], [], [], false, false, []⟩
/-- A group after reset: DEEP and not allocated (09 R234). -/
def Pan.reset : Pan := ⟨0, false, false, false, .deep, 0, 0, false, 0⟩
/-- A context after reset (16 R412); the log header's values are those of R364. -/
def Ctx.reset : Ctx := ⟨false, 0, 0, 0, 0, 0, 0, 1, 0, 0, 0, 0, [], 0, 0, []⟩
/-- A queue after reset: UNBOUND, rank 7 (15 R386). -/
def Queue.reset : Queue := ⟨.unbound, 0, 7, 0, [], [], 0, 0, 0, [], [], false, [], none⟩
/-- A link port after reset. -/
def LinkPort.reset : LinkPort := ⟨[], [], false, false, false, 0⟩
/-- No bundle in mid-issue. -/
def Issue.none : Issue := ⟨false, 0, 0, 0, 0, 0, Option.none, 1, .none, false, Option.none, [], 0⟩
/-- The hub after reset (16 R416, R418, R421; 09 R236; 14 R371; 15 R399; 16 R415). -/
def Hub.reset : Hub where
  time := 0
  up := false
  verified := false
  linksUp := false
  timeSynced := false
  nodeid := 0
  coldIdle := 200
  scrubInterval := 24
  preemptWait := 1000
  linkTo := 100000
  debug := false
  brk := false
  hardStops := []
  preempts := []
  victims := []
  pwrctl := 2000
  grants := [0, 0, 0, 0]
  nextGrant := 0
  nonce := []
  attBusy := false
  attReady := false
  attFail := false
  report := []
  chain := []
  ncode := 0
  scrubTable := []
  nextScrub := 0
  counts := []
  bwq := []
  outOfService := []
  dieResv := []
  nextLaunch := 0
  panReqs := []
  keyring := []

/-- The package right after reset. -/
def State.reset : State where
  issue := .none
  kerns := []
  cores := []
  doms := []
  sites := []
  launches := []
  queues := []
  ctxs := []
  objs := []
  pans := []
  mem := []
  marks := []
  ue := []
  ce := []
  encTag := []
  lines := []
  ingress := []
  tlb := []
  emiss := []
  rfaults := []
  ufaults := []
  fills := []
  links := []
  recvs := []
  keyPos := []
  hub := .reset
  reqs := []
  hostIn := []
  putsHeld := []
  mgmtIn := []
  soft := []
  out := []
  script := []
  choices := 0

end Sys2Proof.Machine
end

