-- ==== Sys2Proof/Machine/Tab.lean ====
section
/-! DEFINITION. Sparse tables in canonical form, and bytes. A table lists no key twice, its keys rise strictly, and no
entry holds what an unlisted key reads as, so that equal contents are equal data. -/

namespace Sys2Proof.Machine

/-- What a table holds at a key; `d` where the key is not listed. -/
def Tab.get {α : Type} (d : α) : Tab α → Nat → α
  | [], _ => d
  | (k, x) :: t, i => if i = k then x else Tab.get d t i

/-- The entry at a key, if the key is listed. -/
def Tab.get? {α : Type} : Tab α → Nat → Option α
  | [], _ => none
  | (k, x) :: t, i => if i = k then some x else Tab.get? t i

/-- A table with the key removed. -/
def Tab.erase {α : Type} : Tab α → Nat → Tab α
  | [], _ => []
  | (k, x) :: t, i => if i = k then t else (k, x) :: Tab.erase t i

/-- A table with the key set, in rising order of keys. -/
def Tab.set {α : Type} : Tab α → Nat → α → Tab α
  | [], i, v => [(i, v)]
  | (k, x) :: t, i, v => if i < k then (i, v) :: (k, x) :: t else if i = k then (i, v) :: t else (k, x) :: Tab.set t i v

/-- A table with the key set, or removed where `v` is what an unlisted key reads as. -/
def Tab.put {α : Type} [DecidableEq α] (d : α) (t : Tab α) (i : Nat) (v : α) : Tab α :=
  if v = d then t.erase i else t.set i v

/-- The keys rise strictly, all above `lo`, and no entry is `d`. -/
def Tab.wfFrom {α : Type} [DecidableEq α] (d : α) : Option Nat → Tab α → Bool
  | _, [] => true
  | lo, (k, x) :: t => (match lo with | none => true | some l => decide (l < k)) && decide (x ≠ d) && Tab.wfFrom d (some k) t

/-- The canonical form of a table whose unlisted keys read as `d`. -/
def Tab.wf {α : Type} [DecidableEq α] (d : α) (t : Tab α) : Bool := Tab.wfFrom d none t

/-- The canonical form of memory: addresses rise strictly, and no listed byte is 0, what an unlisted address reads as. -/
def Memory.wf (m : Memory) : Bool := Tab.wf (0 : Byte) m

/-- One byte of memory. -/
def Memory.byte (m : Memory) (a : Nat) : Byte := Tab.get 0 m a

/-- Memory with one byte written. -/
def Memory.write (m : Memory) (a : Nat) (b : Byte) : Memory := Tab.put 0 m a b

/-- n bytes from address a upwards. -/
def Memory.read (m : Memory) (a : Nat) : Nat → List Byte
  | 0 => []
  | n + 1 => m.byte a :: Memory.read m (a + 1) n

/-- Memory with bytes written from address a upwards. -/
def Memory.writeAll (m : Memory) (a : Nat) : List Byte → Memory
  | [] => m
  | b :: bs => Memory.writeAll (m.write a b) (a + 1) bs

/-- Bits hi:lo of a number. -/
def bitsOf (x hi lo : Nat) : Nat := x / 2 ^ lo % 2 ^ (hi + 1 - lo)

/-- The sign of an n-bit pattern read as two's complement (03 R54). -/
def signExt (n x : Nat) : Int := if x % 2 ^ n < 2 ^ (n - 1) then ((x % 2 ^ n : Nat) : Int) else ((x % 2 ^ n : Nat) : Int) - 2 ^ n

/-- The first element of a list that passes a test, with its position. -/
def findAt {α : Type} (p : α → Bool) : Nat → List α → Option (Nat × α)
  | _, [] => none
  | i, x :: xs => if p x then some (i, x) else findAt p (i + 1) xs

/-- A list without its entry at a position. -/
def dropAt {α : Type} : List α → Nat → List α
  | [], _ => []
  | _ :: xs, 0 => xs
  | x :: xs, n + 1 => x :: dropAt xs n

/-- A list with its entry at a position changed. -/
def modifyAt {α : Type} (f : α → α) : List α → Nat → List α
  | [], _ => []
  | x :: xs, 0 => f x :: xs
  | x :: xs, n + 1 => x :: modifyAt f xs n

/-- Division rounded up. -/
def ceilDiv (a b : Nat) : Nat := (a + b - 1) / b

end Sys2Proof.Machine
end

