-- ==== Sys2Proof/Machine/Fp.lean ====
section
/-! DEFINITION. Number formats and arithmetic (04 R71-R100): values are exact dyadic numbers, every rounding is one call of
`roundTo`, and the functions of R98 deliver enough exact digits, with a sticky bit below them, for one rounding. -/

namespace Sys2Proof.Machine

/-- A format (R71, R73, R74). `kind` is KIND; the rest are its fields. -/
structure Fmt where
  kind : Nat
  w : Nat
  sgn : Bool
  e : Nat
  m : Nat
  bias : Int
  /-- SPECIALS: 0 IEEE, 1 FN, 2 FIN. -/
  spec : Nat
  nosub : Bool
  scaled : Bool
  deriving DecidableEq, Repr, Inhabited

namespace Fmt
/-- binary64. -/
def f64 : Fmt := ⟨1, 64, true, 11, 52, 1023, 0, false, false⟩
/-- binary32. -/
def f32 : Fmt := ⟨2, 32, true, 8, 23, 127, 0, false, false⟩
/-- binary16. -/
def f16 : Fmt := ⟨3, 16, true, 5, 10, 15, 0, false, false⟩
/-- bfloat16. -/
def bf16 : Fmt := ⟨4, 16, true, 8, 7, 127, 0, false, false⟩
/-- An integer format of w bits. -/
def int (kind w : Nat) (sgn : Bool) : Fmt := ⟨kind, w, sgn, 0, 0, 0, 2, false, false⟩
/-- INT8 (R73). -/
def int8 : Fmt := ⟨0, 8, true, 0, 7, 0, 2, false, false⟩

/-- A format descriptor (R74); none where it is invalid (R75). -/
def ofDesc (d : BitVec 32) : Option Fmt :=
  let n := d.toNat
  let kind := bitsOf n 23 20
  if n / 2 ^ 24 ≠ 0 ∨ kind > 10 then none
  else if kind ≠ 0 then
    if n % 2 ^ 20 ≠ 0 then none else
      match kind with
      | 1 => some f64
      | 2 => some f32
      | 3 => some f16
      | 4 => some bf16
      | 5 => some (int 5 16 true)
      | 6 => some (int 6 32 true)
      | 7 => some (int 7 64 true)
      | 8 => some (int 8 16 false)
      | 9 => some (int 9 32 false)
      | _ => some (int 10 64 false)
  else
    let w := bitsOf n 3 0
    let s := bitsOf n 4 4
    let e := bitsOf n 7 5
    let spec := bitsOf n 17 16
    if w = 0 ∨ w > 8 ∨ w < s + e ∨ spec = 3 ∨ (spec = 0 ∧ e < 2) ∨ (spec = 1 ∧ e < 1) then none
    else some ⟨0, w, s == 1, e, w - s - e, signExt 8 (bitsOf n 15 8), spec, bitsOf n 18 18 == 1, bitsOf n 19 19 == 1⟩

/-- An integer format in the sense of R82: an integer kind, or a narrow format with E = 0. -/
def isInt (f : Fmt) : Bool := f.e == 0
/-- The format has infinities (R82). -/
def hasInf (f : Fmt) : Bool := f.e != 0 && f.spec == 0
/-- A floating-point kind with its own poison encoding (R86). -/
def isFloat (f : Fmt) : Bool := 1 ≤ f.kind && f.kind ≤ 4
/-- The bits an origin has in a poison encoding (R86). -/
def obits (f : Fmt) : Nat := match f.kind with | 3 => 8 | 4 => 5 | _ => 15
/-- The exponent of the unit of the least spacing: of the subnormals, or of the integer grid (R76). -/
def qmin (f : Fmt) : Int := if f.e = 0 then -f.bias else 1 - f.bias - (f.m : Int)
/-- The magnitude code of the largest finite value, exponent field and fraction read as one number (R76). -/
def maxCode (f : Fmt) : Nat :=
  if f.e = 0 then (if f.sgn then 2 ^ (f.w - 1) - 1 else 2 ^ f.w - 1)
  else if f.spec = 0 then (2 ^ f.e - 1) * 2 ^ f.m - 1
  else if f.spec = 1 then 2 ^ (f.e + f.m) - 2
  else 2 ^ (f.e + f.m) - 1
/-- The magnitude of MinFinite in the same code (R76). -/
def minCode (f : Fmt) : Nat :=
  if !f.sgn then 0 else if f.e = 0 then 2 ^ (f.w - 1) else f.maxCode
/-- The number of bytes of an element; a narrow element is counted by its tensor (08 R207). -/
def bytes (f : Fmt) : Nat := f.w / 8
end Fmt

/-- A finite exact value: (-1)^neg x (m + s) x 2^e with s = 0, or 0 < s < 1 where `st`. -/
structure Ex where
  neg : Bool
  m : Nat
  e : Int
  st : Bool
  deriving DecidableEq, Repr, Inhabited

/-- A value as an operand. -/
inductive FVal where
  | fin (x : Ex)
  | inf (neg : Bool)
  | poison (o : Origin)
  /-- A NaN without the marker pair (R86). -/
  | foreign
  deriving DecidableEq, Repr, Inhabited

/-- A rounded result: an encoding, or poison with its origin. -/
inductive RVal where
  | bits (n : Nat)
  | poison (o : Origin)
  deriving DecidableEq, Repr, Inhabited

/-! ## Origins (R89, R90) -/

/-- R89. -/
def narrowOrigin (w : Nat) (o : Origin) : Nat := if o.toNat < 2 ^ w - 1 then o.toNat else 2 ^ w - 1
/-- R89. -/
def widenOrigin (w c : Nat) : Origin := if c = 2 ^ w - 1 then 0x7FFF else BitVec.ofNat 15 c
/-- Two origins merged (R90). -/
def merge2 (a b : Origin) : Origin :=
  let ra := a ≠ 0 ∧ a ≠ 0x7FFF
  let rb := b ≠ 0 ∧ b ≠ 0x7FFF
  if ra ∧ rb then (if a.toNat ≤ b.toNat then a else b)
  else if ra then a else if rb then b
  else if a = 0x7FFF ∨ b = 0x7FFF then 0x7FFF else 0
/-- MergePoison (R90, R94): none where no operand is poison. -/
def mergePoison : List (Option Origin) → Option Origin
  | [] => none
  | none :: t => mergePoison t
  | some o :: t => match mergePoison t with | none => some o | some p => some (merge2 o p)

/-! ## What an instruction instance carries through its arithmetic (R81, R85, R94) -/

/-- A call of NewOrigin: its kind, the index it returned, the lane concerned. -/
structure Made where
  kind : Nat
  idx : Origin
  lane : Nat
  /-- It took an index from the reservation; else the log was full or the reservation empty. -/
  took : Bool
  deriving DecidableEq, Repr, Inhabited

/-- The arithmetic state of one instruction instance: the LFSR, the conditions raised, the indices it may take, the
entries it made, the lane it works on. -/
structure Ar where
  g : Word
  flags : BitVec 5
  pool : List Origin
  full : Bool
  made : List Made
  lane : Nat
  deriving DecidableEq, Repr, Inhabited

/-- Arithmetic of one instruction instance. -/
abbrev Arith := StateM Ar

/-- The kinds of R365. -/
def kMEMUE : Nat := 1
def kSCRUBUE : Nat := 2
def kTAGFAIL : Nat := 3
def kNANGEN : Nat := 4
def kFOREIGN : Nat := 5
def kOVERFLOW : Nat := 6
def kBADSCALE : Nat := 7
def kHOSTINJECT : Nat := 8

/-- NewOrigin (R94): one index per kind and instance; 0x7FFF when the log is full, 0x0000 when the reservation is empty. -/
def newOrigin (kind : Nat) : Arith Origin := fun a =>
  match a.made.find? (fun x => x.kind == kind) with
  | some x => (x.idx, a)
  | none =>
    if a.full then (0x7FFF, { a with made := a.made ++ [⟨kind, 0x7FFF, a.lane, false⟩] })
    else match a.pool with
      | [] => (0, { a with made := a.made ++ [⟨kind, 0, a.lane, false⟩] })
      | o :: t => (o, { a with pool := t, made := a.made ++ [⟨kind, o, a.lane, true⟩] })

/-- Raise conditions, laid out as FPFLAGS (R84): 1 NV, 2 DZ, 4 OF, 8 UF, 16 NX. -/
def raise (f : BitVec 5) : Arith Unit := fun a => ((), { a with flags := a.flags ||| f })

/-- StepLFSR (R81). -/
def stepLFSR (g : Word) : Word :=
  if g.getLsbD 0 then (g >>> 1) ^^^ 0xD800_0000_0000_0000 else g >>> 1

/-- The LFSR stepped n times. -/
def stepLFSRn : Nat → Word → Word
  | 0, g => g
  | n + 1, g => stepLFSRn n (stepLFSR g)

/-- The 24 bits of an SR rounding, consumed whatever the value (R81); 0 in the other modes. -/
def takeSR (mode : Nat) : Arith Nat := fun a =>
  if mode = 4 then (a.g.toNat % 2 ^ 24, { a with g := stepLFSRn 24 a.g }) else (0, a)

/-! ## Decoding operands (R71, R76, R86) -/

/-- The magnitude code c of a format with an exponent as an exact value (R76). -/
def exOfCode (f : Fmt) (neg : Bool) (c : Nat) : Ex :=
  let ef := c / 2 ^ f.m
  let mf := c % 2 ^ f.m
  if f.e = 0 then ⟨neg, c, f.qmin, false⟩
  else if ef = 0 then ⟨neg, if f.nosub then 0 else mf, f.qmin, false⟩
  else ⟨neg, 2 ^ f.m + mf, f.qmin + (ef : Int) - 1, false⟩

/-- The value of an encoding (R71, R76, R86). -/
def decodeF (f : Fmt) (bits : Nat) : FVal :=
  let x := bits % 2 ^ f.w
  if f.e = 0 then
    let v : Int := if f.sgn then signExt f.w x else x
    .fin ⟨decide (v < 0), v.natAbs, f.qmin, false⟩
  else
    let neg := f.sgn && decide (2 ^ (f.w - 1) ≤ x)
    let c := x % 2 ^ (f.e + f.m)
    let mf := c % 2 ^ f.m
    if c / 2 ^ f.m = 2 ^ f.e - 1 then
      if f.spec = 0 then
        if mf = 0 then .inf neg
        else if f.isFloat && mf / 2 ^ (f.m - 2) == 3 then .poison (widenOrigin f.obits (mf % 2 ^ f.obits))
        else .foreign
      else if f.spec = 1 && mf == 2 ^ f.m - 1 then .foreign
      else .fin (exOfCode f neg c)
    else .fin (exOfCode f neg c)

/-- PoisonOf for the kinds of R86 that have an encoding; the origin in bits 14:0 for the others (R87). -/
def poisonBits (f : Fmt) (o : Origin) : Nat :=
  if f.isFloat then (2 ^ f.e - 1) * 2 ^ f.m + 3 * 2 ^ (f.m - 2) + narrowOrigin f.obits o else o.toNat

/-- The origin as the carrier keeps it (R89). -/
def carried (f : Fmt) (o : Origin) : Origin :=
  if f.isFloat then widenOrigin f.obits (narrowOrigin f.obits o) else o

/-! ## Rounding (R80-R83, R94) -/

/-- The number of bits of a natural number. -/
def bitLen (n : Nat) : Nat := if n = 0 then 0 else Nat.log2 n + 1

/-- m x 2^e as a whole multiple of 2^u, rounded by mode with the SR bits r; whether it was inexact. -/
def roundUnits (mode : Nat) (neg : Bool) (r m : Nat) (e : Int) (st : Bool) (u : Int) : Nat × Bool :=
  if u ≤ e then (m * 2 ^ (e - u).toNat, st)
  else
    let sh := (u - e).toNat
    if bitLen m + 64 < sh then (if (mode == 2 && !neg) || (mode == 3 && neg) then 1 else 0, true) else
    let k := m / 2 ^ sh
    let rem := m % 2 ^ sh
    let inexact := rem != 0 || st
    let up : Bool :=
      match mode with
      | 0 => decide (2 * rem > 2 ^ sh) || (2 * rem == 2 ^ sh && (st || k % 2 == 1))
      | 1 => false
      | 2 => inexact && !neg
      | 3 => inexact && neg
      | _ => decide (2 ^ (sh + 24) ≤ rem * 2 ^ 24 + r * 2 ^ sh)
    (if up then k + 1 else k, inexact)

/-- A sign bit for the format's encoding. -/
def signBit (f : Fmt) (neg : Bool) : Nat := if neg && f.sgn then 2 ^ (f.w - 1) else 0

/-- The encoding of a magnitude code with a sign (R83, R94). -/
def encodeCode (f : Fmt) (neg : Bool) (c : Nat) : Nat :=
  if f.e = 0 then (if neg then (2 ^ f.w - c % 2 ^ f.w) % 2 ^ f.w else c)
  else signBit f neg + c

/-- MaxFinite or MinFinite on the side of the sign. -/
def satBits (f : Fmt) (neg : Bool) : Nat := encodeCode f neg (if neg then f.minCode else f.maxCode)

/-- The infinity of a format that has one. A format without a sign has no negative one and gets its infinity (log 111: DESIGN
CHOICE). -/
def infBits (f : Fmt) (neg : Bool) : Nat := signBit f neg + (2 ^ f.e - 1) * 2 ^ f.m

/-- The result of an overflow (R82). -/
def overflowed (f : Fmt) (neg : Bool) (mode : Nat) (sat : Bool) : Arith RVal := do
  raise 20
  let toInf := match mode with | 1 => false | 2 => !neg | 3 => neg | _ => true
  if sat || !toInf then return .bits (satBits f neg)
  else if f.hasInf then return .bits (infBits f neg)
  else return .poison (← newOrigin kOVERFLOW)

/-- A finite value rounded into a format, with the SR bits r taken (R80-R83). -/
def roundFin (f : Fmt) (x : Ex) (r mode : Nat) (sat : Bool) : Arith RVal := do
  if x.m = 0 && !x.st then
    return .bits (if f.e = 0 then 0 else signBit f x.neg)
  let top : Int := x.e + (bitLen x.m : Int) - 1
  let u : Int := if f.e = 0 then f.qmin else max (top - (f.m : Int)) f.qmin
  let (n, inexact) := roundUnits mode x.neg r x.m x.e x.st u
  let code : Nat := if f.e = 0 then n else if n = 0 then 0 else (u - f.qmin).toNat * 2 ^ f.m + n
  if code > (if x.neg then f.minCode else f.maxCode) then
    overflowed f x.neg mode sat
  else if f.e != 0 && decide (code < 2 ^ f.m) then
    if f.nosub && code != 0 then
      raise 24
      return .bits (signBit f x.neg)
    if inexact then raise 24
    return .bits (encodeCode f x.neg code)
  else
    if inexact then raise 16
    return .bits (encodeCode f x.neg code)

/-- RoundTo (R94). -/
def roundTo (f : Fmt) (x : FVal) (mode : Nat) (sat : Bool) : Arith RVal := do
  let r ← takeSR mode
  match x with
  | .poison o => return .poison (carried f o)
  | .foreign => return .poison (carried f (← newOrigin kFOREIGN))
  | .inf neg =>
    if f.hasInf then return .bits (infBits f neg)
    else if sat then
      raise 20
      return .bits (satBits f neg)
    else if f.isInt then
      raise 1
      return .poison (← newOrigin kNANGEN)
    else
      raise 20
      return .poison (← newOrigin kOVERFLOW)
  | .fin v => roundFin f v r mode sat

/-- The bits of a rounded result in a register element (R87). -/
def RVal.toBits (f : Fmt) : RVal → Nat
  | .bits n => n
  | .poison o => poisonBits f o

/-- The origin of a poison result. -/
def RVal.origin? : RVal → Option Origin
  | .bits _ => none
  | .poison o => some o

/-- The result is poison. -/
def RVal.isPoison : RVal → Bool
  | .bits _ => false
  | .poison _ => true

/-! ## Exact operations (R91, R92, R94) -/

/-- The merged origin of poison operands, a foreign NaN counting as NewOrigin(FOREIGN) (R88, R92). -/
def gather : List FVal → Arith (Option Origin)
  | [] => pure none
  | x :: t => do
    let o ← (match x with
      | .poison o => pure (some o)
      | .foreign => do return some (← newOrigin kFOREIGN)
      | _ => pure none : Arith (Option Origin))
    let p ← gather t
    return mergePoison [o, p]

/-- An invalid operation (R91). -/
def invalid : Arith FVal := do
  raise 1
  return .poison (← newOrigin kNANGEN)

/-- The negative of a value. -/
def FVal.negate : FVal → FVal
  | .fin x => .fin { x with neg := !x.neg }
  | .inf n => .inf (!n)
  | v => v

/-- The magnitude of a value. -/
def FVal.abs : FVal → FVal
  | .fin x => .fin { x with neg := false }
  | .inf _ => .inf false
  | v => v

/-- The exact sum, digits aligned. -/
def exSum (rdn : Bool) (a b : Ex) : Ex :=
  if a.m = 0 && b.m = 0 then ⟨if a.neg == b.neg then a.neg else rdn, 0, a.e, false⟩
  else if a.m = 0 then b
  else if b.m = 0 then a
  else
    let e := min a.e b.e
    let x := a.m * 2 ^ (a.e - e).toNat
    let y := b.m * 2 ^ (b.e - e).toNat
    if a.neg == b.neg then ⟨a.neg, x + y, e, false⟩
    else if x = y then ⟨rdn, 0, e, false⟩
    else if y < x then ⟨a.neg, x - y, e, false⟩
    else ⟨b.neg, y - x, e, false⟩

/-- A far larger value and a small nonzero one: 300 digits of the sum and a sticky bit below them. -/
def exFar (big small : Ex) : Ex :=
  let m := big.m * 2 ^ 300
  if big.neg == small.neg then ⟨big.neg, m, big.e - 300, true⟩ else ⟨big.neg, m - 1, big.e - 300, true⟩

/-- The sum for one rounding: exact, or with a sticky bit where one addend lies far below the other's last digit. -/
def exAdd (rdn : Bool) (a b : Ex) : Ex :=
  if a.m = 0 || b.m = 0 then exSum rdn a b
  else if b.e + (bitLen b.m : Int) < a.e - 300 then exFar a b
  else if a.e + (bitLen a.m : Int) < b.e - 300 then exFar b a
  else exSum rdn a b

/-- The exact product. -/
def exMul (a b : Ex) : Ex := ⟨a.neg != b.neg, a.m * b.m, a.e + b.e, false⟩

/-- Whether a finite value is zero. -/
def Ex.isZero (x : Ex) : Bool := x.m == 0 && !x.st

/-- The sum of two values with no poison among them. -/
def addV (mode : Nat) (a b : FVal) : Arith FVal :=
  match a, b with
  | .fin x, .fin y => pure (.fin (exAdd (mode == 3) x y))
  | .inf n, .inf p => if n == p then pure (.inf n) else invalid
  | .inf n, _ => pure (.inf n)
  | _, .inf n => pure (.inf n)
  | _, _ => pure a

/-- The product of two values with no poison among them. -/
def mulV (a b : FVal) : Arith FVal :=
  match a, b with
  | .fin x, .fin y => pure (.fin (exMul x y))
  | .inf n, .inf p => pure (.inf (n != p))
  | .inf n, .fin y => if y.isZero then invalid else pure (.inf (n != y.neg))
  | .fin x, .inf p => if x.isZero then invalid else pure (.inf (x.neg != p))
  | _, _ => pure a

/-- Exact addition (R91, R92). -/
def fpAdd (mode : Nat) (a b : FVal) : Arith FVal := do
  match ← gather [a, b] with
  | some o => return .poison o
  | none => addV mode a b

/-- Exact multiplication. -/
def fpMul (a b : FVal) : Arith FVal := do
  match ← gather [a, b] with
  | some o => return .poison o
  | none => mulV a b

/-- The exact a x b + c. -/
def fpFma (mode : Nat) (a b c : FVal) : Arith FVal := do
  match ← gather [a, b, c] with
  | some o => return .poison o
  | none =>
    match ← mulV a b with
    | .poison o => return .poison o
    | p => addV mode p c

/-- The quotient's digits: exact to at least 200 bits, with a sticky bit. -/
def exDiv (a b : Ex) : Ex :=
  let sh := 200 + bitLen b.m
  ⟨a.neg != b.neg, a.m * 2 ^ sh / b.m, a.e - b.e - (sh : Int), a.m * 2 ^ sh % b.m != 0⟩

/-- Division (R91, R98). -/
def fpDiv (a b : FVal) : Arith FVal := do
  match ← gather [a, b] with
  | some o => return .poison o
  | none =>
    match a, b with
    | .inf _, .inf _ => invalid
    | .inf n, .fin y => return .inf (n != y.neg)
    | .fin x, .inf p => return .fin ⟨x.neg != p, 0, 0, false⟩
    | .fin x, .fin y =>
      if y.isZero then
        if x.isZero then invalid
        else
          raise 2
          return .inf (x.neg != y.neg)
      else if x.isZero then return .fin ⟨x.neg != y.neg, 0, 0, false⟩
      else return .fin (exDiv x y)
    | _, _ => return a

/-- The integer square root by binary digits: the largest r below 2^n with r^2 <= x. -/
def isqrtBits (x : Nat) : Nat → Nat → Nat
  | 0, r => r
  | n + 1, r => let t := r + 2 ^ n
    if t * t ≤ x then isqrtBits x n t else isqrtBits x n r

/-- The integer square root. -/
def isqrt (x : Nat) : Nat := isqrtBits x (bitLen x / 2 + 1) 0

/-- The square root's digits of a positive value. -/
def exSqrt (x : Ex) : Ex :=
  let sh : Int := if x.e % 2 = 0 then 400 else 401
  let m := x.m * 2 ^ sh.toNat
  let r := isqrt m
  ⟨false, r, (x.e - sh) / 2, r * r != m⟩

/-- The square root (R91, R98). -/
def fpSqrt (a : FVal) : Arith FVal := do
  match ← gather [a] with
  | some o => return .poison o
  | none =>
    match a with
    | .inf n => if n then invalid else return a
    | .fin x => if x.isZero then return a else if x.neg then invalid else return .fin (exSqrt x)
    | _ => return a

/-- The reciprocal (R98). -/
def fpRcp (a : FVal) : Arith FVal := do
  match ← gather [a] with
  | some o => return .poison o
  | none =>
    match a with
    | .inf n => return .fin ⟨n, 0, 0, false⟩
    | .fin x =>
      if x.isZero then
        raise 2
        return .inf x.neg
      else return .fin (exDiv ⟨false, 1, 0, false⟩ x)
    | _ => return a

/-- The reciprocal square root (R98). -/
def fpRsq (a : FVal) : Arith FVal := do
  match ← gather [a] with
  | some o => return .poison o
  | none =>
    match a with
    | .inf n => if n then invalid else return .fin ⟨false, 0, 0, false⟩
    | .fin x =>
      if x.isZero then
        raise 2
        return .inf x.neg
      else if x.neg then invalid
      else
        -- 1 / sqrt(m 2^e) with e even: floor(sqrt(2^2k / m)) 2^(-k - e/2)
        let (m, e) : Nat × Int := if x.e % 2 = 0 then (x.m, x.e) else (x.m * 2, x.e - 1)
        let k := 200 + bitLen m
        let r := isqrt (2 ^ (2 * k) / m)
        return .fin ⟨false, r, -(k : Int) - e / 2, r * r * m != 2 ^ (2 * k)⟩
    | _ => return a

/-! ## Base-2 exponential and logarithm (R98)

Both deliver the exact floor of the result's digits by interval arithmetic, with a precision that grows until the two
ends of the interval agree. -/

/-- The digits of 2^(f / 2^n), f < 2^n, below and above, with P digits after the point: the product of the roots
2^(2^-i) for the bits i of f. `lo` and `hi` bound 2^(2^-i). -/
def exp2Digits (p f : Nat) : Nat → Nat × Nat → Nat × Nat → Nat × Nat
  | 0, _, acc => acc
  | n + 1, (lo, hi), (al, ah) =>
    let lo' := isqrt (lo * 2 ^ p)
    let hi' := isqrt (hi * 2 ^ p) + 1
    if f / 2 ^ n % 2 = 1 then exp2Digits p f n (lo', hi') (al * lo' / 2 ^ p, ah * hi' / 2 ^ p + 1)
    else exp2Digits p f n (lo', hi') (al, ah)

/-- floor(2^(f / 2^n) x 2^120): the first precision of the list at which the interval lies within one digit. -/
def exp2Floor (f n : Nat) : List Nat → Nat
  | [] => 2 ^ 120
  | p :: ps =>
    let (l, h) := exp2Digits p f n (2 * 2 ^ p, 2 * 2 ^ p) (2 ^ p, 2 ^ p)
    let a := l / 2 ^ (p - 120)
    if a = h / 2 ^ (p - 120) || ps.isEmpty then a else exp2Floor f n ps

/-- 2^x of a finite nonzero x. -/
def exExp2 (x : Ex) : FVal :=
  if x.e + (bitLen x.m : Int) > 40 then
    -- far beyond every exponent: a power that overflows or underflows in every format
    if x.neg then .fin ⟨false, 1, -(2 ^ 40), true⟩ else .fin ⟨false, 1, 2 ^ 20, true⟩
  else if x.e + (bitLen x.m : Int) < -110 then
    if x.neg then .fin ⟨false, 2 ^ 121 - 1, -121, true⟩ else .fin ⟨false, 2 ^ 120, -120, true⟩
  else
    let n := (-x.e).toNat
    let v : Int := if x.neg then -(x.m * 2 ^ x.e.toNat : Nat) else (x.m * 2 ^ x.e.toNat : Nat)
    let q := v / 2 ^ n
    let f := (v % 2 ^ n).toNat
    if f = 0 then .fin ⟨false, 1, q, false⟩
    else .fin ⟨false, exp2Floor f n [256, 512, 1024, 2048], q - 120, true⟩

/-- VEXP2 (R98). -/
def fpExp2 (a : FVal) : Arith FVal := do
  match ← gather [a] with
  | some o => return .poison o
  | none =>
    match a with
    | .inf n => return if n then .fin ⟨false, 0, 0, false⟩ else .inf false
    | .fin x => return if x.isZero then .fin ⟨false, 1, 0, false⟩ else exExp2 x
    | _ => return a

/-- The binary digits of log2(y), y in [1, 2) at or just above l / 2^p: each squaring gives one digit. -/
def log2Digits (p : Nat) : Nat → Nat → Nat → Nat
  | 0, _, d => d
  | n + 1, l, d =>
    let q := l * l / 2 ^ p
    if 2 * 2 ^ p ≤ q then log2Digits p n (q / 2) (2 * d + 1) else log2Digits p n q (2 * d)

/-- log2 of a finite positive value (R98): k + log2(y), exact where y = 1. -/
def exLog2 (x : Ex) : Ex :=
  let t := bitLen x.m - 1
  let k : Int := x.e + t
  if x.m = 2 ^ t then ⟨decide (k < 0), k.natAbs, 0, false⟩
  else
    let p := 800
    let y := x.m * 2 ^ (p - t)
    let d := log2Digits p 220 y 0
    if 0 ≤ k then ⟨false, k.toNat * 2 ^ 220 + d, -220, true⟩
    else ⟨true, k.natAbs * 2 ^ 220 - d - 1, -220, true⟩

/-- VLOG2 (R98). -/
def fpLog2 (a : FVal) : Arith FVal := do
  match ← gather [a] with
  | some o => return .poison o
  | none =>
    match a with
    | .inf n => if n then invalid else return a
    | .fin x =>
      if x.isZero then
        raise 2
        return .inf true
      else if x.neg then invalid
      else return .fin (exLog2 x)
    | _ => return a

/-! ## Comparison, minimum and maximum (R92) -/

/-- Compare finite magnitudes: a < b. -/
def exMagLt (a b : Ex) : Bool :=
  if b.m = 0 then false
  else if a.m = 0 then true
  else
    let ta := a.e + (bitLen a.m : Int)
    let tb := b.e + (bitLen b.m : Int)
    if ta ≠ tb then decide (ta < tb)
    else
      let e := min a.e b.e
      decide (a.m * 2 ^ (a.e - e).toNat < b.m * 2 ^ (b.e - e).toNat)

/-- a < b in value; the zeros are equal. -/
def exLt (a b : Ex) : Bool :=
  match a.neg && a.m != 0, b.neg && b.m != 0 with
  | true, true => exMagLt b a
  | true, false => true
  | false, true => false
  | false, false => exMagLt a b

/-- a < b of values that are no poison. -/
def fvLt (a b : FVal) : Bool :=
  match a, b with
  | .fin x, .fin y => exLt x y
  | .inf n, .inf p => n && !p
  | .inf n, _ => n
  | _, .inf p => !p
  | _, _ => false

/-- The total order of minimum and maximum: -0 is below +0. -/
def fvBelow (a b : FVal) : Bool :=
  match a, b with
  | .fin x, .fin y => if x.m = 0 && y.m = 0 then x.neg && !y.neg else exLt x y
  | _, _ => fvLt a b

/-- FMIN, FMAX and their like: `mx` is the maximum (R92). -/
def fpMinMax (mx : Bool) (a b : FVal) : Arith FVal := do
  match ← gather [a, b] with
  | some o => return .poison o
  | none => return if fvBelow a b == mx then b else a

/-- The conditions of FCMP and VCMP by code: EQ NE LT LE GT GE (05 R123). -/
def fpCond (c : Nat) (a b : FVal) : Bool :=
  let lt := fvLt a b
  let gt := fvLt b a
  match c with
  | 0 => !lt && !gt
  | 1 => lt || gt
  | 2 => lt
  | 3 => !gt
  | 4 => gt
  | _ => !lt

/-! ## Block scales and quantisation (R78, R99, R100) -/

/-- The value of an S16 scale that is valid and not poisoned. -/
def scaleEx (s : Nat) : Ex :=
  let e := bitsOf s 14 7
  if e = 0 then ⟨false, 0, 0, false⟩ else ⟨false, 128 + s % 128, (e : Int) - 134, false⟩

/-- An S16 scale as a value: poison where P = 1 or e = 255 (R78). -/
def scaleVal (s : Nat) : Arith FVal :=
  if 32768 ≤ s then pure (.poison (BitVec.ofNat 15 s))
  else if bitsOf s 14 7 = 255 then do return .poison (← newOrigin kBADSCALE)
  else pure (.fin (scaleEx s))

/-- A scaled element's value: R76 times the scale, exactly (R78, R100). -/
def scaledVal (elem scale : FVal) : Arith FVal := do
  match scale with
  | .poison o => return .poison o
  | _ =>
    match elem, scale with
    | .fin x, .fin s => return .fin (exMul x s)
    | .inf n, .fin s => if s.isZero then invalid else return .inf n
    | v, _ => return v

/-- The least S16 value at or above a / MaxFinite(f) (R99 step 3), for a > 0; the largest where MaxFinite is 0 (log 111: DESIGN
CHOICE). -/
def quantScale (f : Fmt) (a : Ex) : Nat :=
  let mx := exOfCode f false f.maxCode
  if mx.m = 0 then 254 * 128 + 127
  else
    let q := exDiv a mx
    let top : Int := q.e + (bitLen q.m : Int) - 1
    let (n, _) := roundUnits 2 false 0 q.m q.e q.st (top - 7)
    let code : Int := (top + 126) * 128 + n
    if top < -126 then 128
    else if code > 254 * 128 + 127 then 254 * 128 + 127
    else code.toNat

/-- The largest finite magnitude among values. -/
def maxMag : List FVal → Ex
  | [] => ⟨false, 0, 0, false⟩
  | .fin x :: t => let y := maxMag t
    if exMagLt y x then { x with neg := false } else y
  | _ :: t => maxMag t

end Sys2Proof.Machine
end

