-- ==== Sys2Proof/Machine/Ops.lean ====
section
/-! DEFINITION. The operations that instructions share: access to kernels, cores and contexts; the sequence of a slot's
effects, in which a trap discards the slot's own effect; registers with their windows in flight (05 R104-R113); origins
(04 R94, 14 R364-R366); results in flight; taking a trap, and returning from a handler (14 R353-R359). -/

namespace Sys2Proof.Machine

/-- The outcome of a step. -/
abbrev Out := Host.Outcome State Fault Refusal

/-! ## Access -/

/-- The kernel with identity k. -/
def State.kern? (s : State) (k : Nat) : Option Kern := s.kerns.find? (fun x => x.kid == k)

/-- The kernel with identity k; a default where there is none. -/
def State.kern (s : State) (k : Nat) : Kern := (s.kern? k).getD default

/-- The state with one kernel changed. -/
def State.modKern (s : State) (k : Nat) (f : Kern → Kern) : State :=
  { s with kerns := s.kerns.map fun x => if x.kid = k then f x else x }

/-- A core. -/
def State.core (s : State) (c : Nat) : Core := Tab.get Core.idle s.cores c

/-- The state with one core changed. -/
def State.modCore (s : State) (c : Nat) (f : Core → Core) : State :=
  { s with cores := Tab.put Core.idle s.cores c (f (s.core c)) }

/-- A domain. -/
def State.dom? (s : State) (d : Nat) : Option Dom := Tab.get? s.doms d

/-- The domain count of a domain; 0 where there is none. -/
def State.dcyc (s : State) (d : Nat) : Nat := match s.dom? d with | some x => x.dcyc | none => 0

/-- The state with one domain changed. -/
def State.modDom (s : State) (d : Nat) (f : Dom → Dom) : State :=
  match s.dom? d with
  | some x => { s with doms := Tab.set s.doms d (f x) }
  | none => s

/-- A context. -/
def State.context (s : State) (c : Nat) : Ctx := Tab.get Ctx.reset s.ctxs c

/-- The state with one context changed. -/
def State.modCtx (s : State) (c : Nat) (f : Ctx → Ctx) : State :=
  { s with ctxs := Tab.put Ctx.reset s.ctxs c (f (s.context c)) }

/-- The port of engine e: copy0 to copy3, key, circuit, link (09 R242, 12 R313, 11 R281, 16 R415). -/
def Kern.port (k : Kern) (e : Nat) : Port :=
  match e with
  | 0 => k.copy0 | 1 => k.copy1 | 2 => k.copy2 | 3 => k.copy3 | 4 => k.key | 5 => k.circP | _ => k.link

/-- A kernel with a port changed. -/
def Kern.modPort (k : Kern) (e : Nat) (f : Port → Port) : Kern :=
  match e with
  | 0 => { k with copy0 := f k.copy0 }
  | 1 => { k with copy1 := f k.copy1 }
  | 2 => { k with copy2 := f k.copy2 }
  | 3 => { k with copy3 := f k.copy3 }
  | 4 => { k with key := f k.key }
  | 5 => { k with circP := f k.circP }
  | _ => { k with link := f k.link }

/-- A running operation of an engine port changed. -/
def Port.modRun (p : Port) (id : Nat) (f : Run → Run) : Port :=
  { p with runs := p.runs.map fun r => if r.op.id.toNat = id then f r else r }

/-- A count of management: 0 corrected, 1 uncorrectable, 2 tag failures, 3 discarded flits (16 R421). -/
def Hub.countUp (h : Hub) (i n : Nat) : Hub := { h with counts := Tab.put 0 h.counts i (Tab.get 0 h.counts i + n) }

/-- A free choice's number; the next one is another. -/
def State.choose (s : State) : Nat × State := (s.choices, { s with choices := s.choices + 1 })

/-- Saturating count of 32 bits (14 R364). -/
def satCount (n k : Nat) : Nat := min (n + k) (2 ^ 32 - 1)

/-- The domain's window flag set (06 R153). -/
def State.breakWindow (s : State) (d : Nat) : State := s.modDom d fun x => { x with broken := true }

/-- An open segment of the domain holds an exchange (06 R159): one that a rendezvous has already closed does not count. -/
def State.exchanging (s : State) (d : Nat) : Bool :=
  s.kerns.any fun y => y.dom == d && y.ctl.segDue.isNone && (match y.seg with | some g => g.exchange | none => false)

/-- The DCYC at which a core itself stands (06 R152, R161): in a handler that froze the domain and after it, until it goes on,
that of its trapped bundle. -/
def State.ownDcyc (s : State) (k : Kern) : Nat :=
  match k.ctl.resumeAt with
  | some c => c
  | none => if k.ctl.handler && k.ctl.froze then k.ctl.trapDcyc else s.dcyc k.dom

/-! ## The effects of one slot -/

/-- Why a slot does not commit. -/
inductive Stop where
  /-- A trap: cause, TVAL, TORIG (14 R353). -/
  | trap (cause : Nat) (val : Word) (orig : Origin)
  /-- A trap on what the operation has read: the errors that the read consumed stay consumed (08 R200). -/
  | kept (s : State) (cause : Nat) (val : Word) (orig : Origin)
  /-- A detected pipeline error (14 R372). -/
  | pipe
  /-- A context fault (14 R358). -/
  | ctxFault
  /-- A SEGMENT trap with its reason (14 R377). -/
  | segment (reason : Nat)
  deriving DecidableEq, Repr, Inhabited

/-- The effects of a slot: a state passed on, or a stop, which discards them. -/
abbrev Slot := StateT State (Except Stop)

/-- The kernel whose bundle is in mid-issue. -/
def curKern : Slot Kern := do
  let s ← get
  return s.kern s.issue.kid

/-- Change the kernel whose bundle is in mid-issue. -/
def modCur (f : Kern → Kern) : Slot Unit := modify fun s => s.modKern s.issue.kid f

/-- Change what the bundle has decided so far. -/
def modIssue (f : Issue → Issue) : Slot Unit := modify fun s => { s with issue := f s.issue }

/-- The word of the slot that runs. -/
def State.slotWord (s : State) : Word := (bundleSlot s.issue.bundle s.issue.slot).setWidth 64

/-- Trap with a TVAL. -/
def trapWith {α : Type} (cause : Nat) (val : Word) (orig : Origin) : Slot α := throw (.trap cause val orig)

/-- Trap with the slot word as TVAL. -/
def trapWord {α : Type} (cause : Nat) (orig : Origin) : Slot α := do
  throw (.trap cause (← get).slotWord orig)

/-- ILLEGAL with the slot word. -/
def illegal {α : Type} : Slot α := trapWord 0x02 0

/-- A 64-bit value as an address. -/
def wordOf (n : Nat) : Word := BitVec.ofNat 64 n

/-! ## Check bits (05 R111, R113) -/

/-- Set bits of a number among its lowest n. -/
def popcount : Nat → Nat → Nat
  | 0, _ => 0
  | n + 1, x => x % 2 + popcount n (x / 2)

/-- A difference between value and check value that a read finds. -/
def detects (d : Word) : Bool :=
  d != 0 && (let p := popcount 64 d.toNat
    decide (p ≤ 3) || p % 2 == 1 || !Config.isCodeWord d)

/-- A vector register's doublewords agree with their check bits (07 R170). -/
def vdetects (v c : VBits) : Bool :=
  v != c && (List.range 32).any (fun i => detects ((v ^^^ c).extractLsb' (64 * i) 64))

/-! ## Results in flight (05 R104-R107) -/

/-- The bits of the bytes that a byte mask selects. -/
def byteBits (bytes : BitVec 256) : VBits :=
  if bytes = BitVec.allOnes 256 then BitVec.allOnes 2048
  else (List.range 256).foldl (fun (acc : VBits) i =>
    if bytes.getLsbD i then acc ||| ((0xFF : VBits) <<< (8 * i)) else acc) 0

/-- A register after a write of some of its bytes (07 R172). -/
def mergeV (new old : VReg) (bytes : BitVec 256) (tagm : Word) : VReg :=
  let m := byteBits bytes
  ⟨(new.v &&& m) ||| (old.v &&& ~~~m), (new.tags &&& tagm) ||| (old.tags &&& ~~~tagm),
   (new.chk &&& m) ||| (old.chk &&& ~~~m)⟩

/-- A mask after a write of some of its bits (07 R176). -/
def mergeM (new old : MaskReg) (sel : Word) : MaskReg :=
  let tags := (new.tags &&& sel) ||| (old.tags &&& ~~~sel)
  let a := if new.tags &&& sel = 0 then none else some new.org
  let b := if old.tags &&& ~~~sel = 0 then none else some old.org
  ⟨(new.v &&& sel) ||| (old.v &&& ~~~sel), tags, (mergePoison [a, b]).getD 0,
   (new.chk &&& sel) ||| (old.chk &&& ~~~sel)⟩

/-- The scalar register a flight writes. -/
def FDest.sregOf (i : Nat) : FDest → Option Reg
  | .sreg (some j) r => if i = j then some r else none
  | _ => none

/-- What a flight makes of a vector register. -/
def FDest.vregOf (i : Nat) (old : VReg) : FDest → Option VReg
  | .vreg (some j) r bytes tagm => if i = j then some (mergeV r old bytes tagm) else none
  | _ => none

/-- The predicate a flight writes. -/
def FDest.predOf (i : Nat) : FDest → Option PredReg
  | .pred j p => if i = j then some p else none
  | _ => none

/-- What a flight makes of a mask. -/
def FDest.maskOf (i : Nat) (old : MaskReg) : FDest → Option MaskReg
  | .mask j m sel => if i = j then some (mergeM m old sel) else none
  | _ => none

/-- Insert by the cycle of landing, before equals: the order in which results take effect, of which the first is issued
before those that stand in the list (R105). -/
def insertDue (x : Nat × Flight) : List (Nat × Flight) → List (Nat × Flight)
  | [] => [x]
  | y :: t => if x.2.due ≤ y.2.due then x :: y :: t else y :: insertDue x t

/-- The flights of earlier cycles that concern a destination, with their positions, in the order of landing. -/
def pendingFor (hit : FDest → Bool) (cyc : Nat) : Nat → List Flight → List (Nat × Flight)
  | _, [] => []
  | n, f :: t =>
    let r := pendingFor hit cyc (n + 1) t
    if hit f.dst && decide (f.iss < cyc) then insertDue (n, f) r else r

/-- How many flights of a list, in order of landing, reads have already returned. -/
def seenCount : List (Nat × Flight) → Nat → Nat → Nat
  | [], _, n => n
  | (_, f) :: t, i, n => seenCount t (i + 1) (if f.seen then i + 1 else n)

/-- Mark the flights at some positions as returned by a read. -/
def markSeen (idx : List Nat) : Nat → List Flight → List Flight
  | _, [] => []
  | n, f :: t => (if idx.contains n then { f with seen := true } else f) :: markSeen idx (n + 1) t

/-- A mask result of V0 that lands with one of V1 for the same mask: V1's whole value is kept (07 R176). -/
def Flight.overridden (l : List Flight) (f : Flight) : Bool :=
  match f.dst with
  | .mask i _ _ => f.slot == 3 && l.any fun g => g.slot == 4 && g.due == f.due && (match g.dst with | .mask j _ _ => i == j | _ => false)
  | _ => false

/-- A read inside a window (R104, R105): the value with the effects of a free number of the pending flights, in their
order of landing, no fewer than an earlier read returned. -/
def windowRead {α : Type} (hit : FDest → Bool) (app : α → FDest → α) (old : α) : Slot α := do
  let k ← curKern
  match pendingFor hit k.cyc 0 k.flights with
  | [] => return old
  | c =>
    let lo := seenCount c 0 0
    let (n, s) := (← get).choose
    set s
    let taken := c.take (lo + Config.pick n % (c.length - lo + 1))
    modCur fun x => { x with flights := markSeen (taken.map (·.1)) 0 x.flights }
    let l := taken.map (·.2)
    return (l.filter fun f => !f.overridden l).foldl (fun v f => app v f.dst) old

/-- The number of a scalar register as the mode sees it: sa24-sa31 are the handler set in a handler (R102). -/
def scalarIndex (handler : Bool) (i : Nat) : Nat := if handler && decide (24 ≤ i) && decide (i < 32) then i + 40 else i

/-- Read a scalar register by its number in `Kern.regs`. -/
def readReg (i : Nat) : Slot Reg := do
  let k ← curKern
  let r ← windowRead (fun d => (d.sregOf i).isSome) (fun v d => (d.sregOf i).getD v) (Tab.get Reg.zero k.regs i)
  if detects (r.v ^^^ r.chk) then throw .pipe
  return r

/-- Read a vector register. -/
def readVReg (i : Nat) : Slot VReg := do
  let k ← curKern
  let r ← windowRead (fun d => match d with | .vreg (some j) _ _ _ => i == j | _ => false)
    (fun v d => (d.vregOf i v).getD v) (Tab.get VReg.zero k.vregs i)
  if vdetects r.v r.chk then throw .pipe
  return r

/-- Read a predicate; p0 is true and untagged (R103). -/
def readPred (i : Nat) : Slot PredReg := do
  if i = 0 then return .p0
  let k ← curKern
  let r ← windowRead (fun d => (d.predOf i).isSome) (fun v d => (d.predOf i).getD v) (Tab.get PredReg.clear k.preds i)
  if r.v != r.chk then throw .pipe
  return r

/-- Read a mask; m0 is all ones (07 R176). -/
def readMask (i : Nat) : Slot MaskReg := do
  if i = 0 then return .m0
  let k ← curKern
  let r ← windowRead (fun d => match d with | .mask j _ _ => i == j | _ => false)
    (fun v d => (d.maskOf i v).getD v) (Tab.get MaskReg.zero k.masks i)
  if detects (r.v ^^^ r.chk) then throw .pipe
  return r

/-- Enter a value into the latch pair of a slot (R107). -/
def pushLatch (slot : Nat) (v : LVal) (lat : Tab LVal) : Tab LVal :=
  let older := match Tab.get? lat (2 * slot) with
    | some x => Tab.set lat (2 * slot + 1) x
    | none => lat.erase (2 * slot + 1)
  Tab.set older (2 * slot) v

/-- What a landing result makes of the registers (R104, R105, R107). -/
def landDest (d : FDest) (k : Kern) : Kern :=
  match d with
  | .sreg (some i) r =>
    { k with regs := Tab.put Reg.zero k.regs i { r with pend := (Tab.get Reg.zero k.regs i).pend } }
  | .vreg (some i) r b t => { k with vregs := Tab.put VReg.zero k.vregs i (mergeV r (Tab.get VReg.zero k.vregs i) b t) }
  | .pred i p => if i = 0 then k else { k with preds := Tab.put PredReg.clear k.preds i p }
  | .mask i m sel =>
    if i = 0 then k else { k with masks := Tab.put MaskReg.zero k.masks i (mergeM m (Tab.get MaskReg.zero k.masks i) sel) }
  | _ => k

/-- The value that enters the latch: a partial result as the whole register it leaves, read before it lands (R107). -/
def latchValue (d : FDest) (k : Kern) : Option LVal :=
  match d with
  | .sreg _ r => some (.sc r.v r.tl r.th r.chk)
  | .vreg i r b t =>
    let old := match i with | some j => Tab.get VReg.zero k.vregs j | none => VReg.zero
    some (.ve (mergeV r old b t))
  | _ => none

/-- The sticky flags of a result's conditions (04 R85). -/
def Kern.raise (k : Kern) (fl : BitVec 5) : Kern :=
  { k with spr := { k.spr with fpflags := k.spr.fpflags ||| fl, fpLanded := k.spr.fpLanded ||| fl } }

/-- One result lands: its register, its latch (the saved image for a program's result in a handler, R110), and the
sticky flags of its conditions (04 R85). -/
def landFlight (f : Flight) (k : Kern) : Kern :=
  let lv := latchValue f.dst k
  let k := (landDest f.dst k).raise f.flags
  match (if f.latch then lv else none) with
  | none => k
  | some v =>
    if k.ctl.handler && !f.hnd then { k with latSaved := pushLatch f.slot v k.latSaved }
    else { k with lat := pushLatch f.slot v k.lat }

/-- The TVAL of an FP trap: the raising bundle, its slot, the conditions (04 R85). -/
def fpTval (f : Flight) : Word := wordOf (f.addr + f.slot * 2 ^ 11 + f.flags.toNat * 2 ^ 16)

/-! ## Traps (14 R353-R359) -/

/-- An uncontained fault of a kernel, to be handled by the hub (14 R381, R382); the core stops. -/
def State.uncontained (s : State) (k : Nat) (code cause : Nat) (tval : Word) (torig : Origin) (tpc : BitVec 14)
    (sig1 sig2 : Word) : State :=
  let x := s.kern k
  let s := s.modKern k fun y => { y with ctl := { y.ctl with dead := true } }
  { s with ufaults := s.ufaults ++ [⟨x.ctx, code, some k, cause, tval, torig, tpc, sig1, sig2⟩] }

/-- A program counter value (03 R60). -/
def pcValue (addr : BitVec 11) (slot : Nat) : BitVec 14 := BitVec.ofNat 3 slot ++ addr

/-- The IS allotment of a kernel: H0, H1 when it has two halves, and RES (03 R59, 15 R394). -/
def isAllotted (halves a : Nat) : Bool := (decide (a < 0x3C0) || decide (0x780 ≤ a) || halves == 2) && decide (a < 0x800)

/-- TrapEntry (R353): cause, TVAL, TORIG, the bundle and slot for TPC, and whether the domain freezes. `hold` cycles
pass before the first handler bundle. Taken out of a wait, it names the wait's bundle, which issues anew after RFT, and whose
stamp the handler reads (06 R152). A trap in a handler is a context fault, as is a vector whose table the kernel does not hold
(R358). -/
def State.trapEntry (s : State) (k cause : Nat) (val : Word) (orig : Origin) (addr : BitVec 11) (slot : Nat)
    (freeze : Bool) : State :=
  let x := s.kern k
  let pc := pcValue addr slot
  let target := x.spr.tvec.toNat + 16 * (cause / 16)
  if x.ctl.handler || !isAllotted x.res.is target then s.uncontained k 0x02 cause val orig pc 0 0
  else
    let dc := s.dcyc x.dom
    let s := s.modKern k fun y =>
      { y with
        spr := { y.spr with tcause := BitVec.ofNat 8 cause, tpc := pc, tval := val, torig := orig }
        latSaved := y.lat
        lat := []
        ctl := { y.ctl with
          handler := true, pc := BitVec.ofNat 11 target, slot := 0, gap := 6, wait := .none, trapAt := addr
          trapDcyc := dc, trapStamp := if y.ctl.wait = .none then dc else y.ctl.waitDcyc, froze := freeze
          boundary := false, tried := true, fetches := y.ctl.fetches + 1 } }
    if freeze then
      s.modDom x.dom fun d => { d with freeze := some (match d.freeze with | some f => f | none => (dc + 5, dc)) }
    else s.breakWindow x.dom

/-- A detected pipeline error (R372): the segment's error with resilience on, else an uncontained fault. -/
def State.pipelineError (s : State) (k : Nat) : State :=
  let x := s.kern k
  match x.seg with
  | some g => s.modKern k fun y => { y with seg := some { g with error := true } }
  | none => s.uncontained k 0x04 0 0 0 (pcValue x.ctl.pc 0) 0 0

/-- The bundle in mid-issue given up: a vote its C slot had cast is owed (06 R154). -/
def State.endIssue (s : State) : State :=
  let s := match s.issue.wait with
    | .sync _ => s.modKern s.issue.kid fun y => { y with ctl := { y.ctl with owed := some (s.issue.addr, none) } }
    | .yield n => s.modKern s.issue.kid fun y => { y with ctl := { y.ctl with owed := some (s.issue.addr, some n) } }
    | _ => s
  { s with issue := { Issue.none with kid := s.issue.kid } }

/-- A slot that does not commit: the bundle ends, and the stop is handled (R353, R358, R372, R377). -/
def State.stopSlot (s : State) (e : Stop) : State :=
  let i := s.issue
  let s := s.endIssue
  match e with
  | .trap cause val orig => s.trapEntry i.kid cause val orig i.addr i.slot true
  | .kept t cause val orig => t.endIssue.trapEntry i.kid cause val orig i.addr i.slot true
  | .pipe => s.pipelineError i.kid
  | .ctxFault => s.uncontained i.kid 0x02 0 0 0 (pcValue i.addr i.slot) 0 0
  | .segment r => s.uncontained i.kid 0x03 0x22 (wordOf r) 0 (pcValue i.addr i.slot) 0 0

/-- The slot after the one that runs becomes the next to run. -/
def State.advanceSlot (s : State) : State := { s with issue := { s.issue with slot := s.issue.slot + 1, made := [], opnd := 0 } }

/-- Run the effects of a slot: they commit and the next slot follows, or they are discarded and the stop is handled. -/
def State.runSlot (s : State) (f : Slot Unit) : State :=
  match f s with
  | .ok (_, t) => t.advanceSlot
  | .error e => s.stopSlot e

/-! ## Origins (14 R364-R367) -/

/-- What an origin entry says besides its index, kind and lane (R365). -/
structure OInfo where
  gang : Nat
  coord : Nat
  source : Nat
  location : Nat
  node : Bool
  insn : Nat
  opnd : Nat
  addr : Nat
  deriving DecidableEq, Repr, Inhabited

/-- The 64 bytes of an origin entry (R365). -/
def originEntry (kind : Nat) (idx : Origin) (lane time : Nat) (i : OInfo) : List Byte :=
  leBytes 2 (idx.toNat + 2 ^ 15) ++ leBytes 1 kind ++ leBytes 1 (if i.node then 1 else 0) ++ leBytes 2 i.gang
    ++ leBytes 1 i.coord ++ leBytes 1 i.source ++ leBytes 8 time ++ leBytes 4 i.location ++ leBytes 4 lane
    ++ leBytes 8 i.insn ++ leBytes 16 i.opnd ++ leBytes 8 i.addr ++ leBytes 8 0

/-- The indices a segment's run is still to be given (14 R379). -/
def Kern.kept (k : Kern) : List Origin := match k.seg with | some g => g.origins.drop g.given | none => []

/-- The indices that a core has in reserve for a context (R366). -/
def Core.resvOf (c : Core) (ctx : Nat) : List Origin := Tab.get [] c.resv ctx

/-- A core with other indices in reserve for a context. -/
def Core.setResv (c : Core) (ctx : Nat) (l : List Origin) : Core := { c with resv := Tab.put [] c.resv ctx l }

/-- The arithmetic state an instance of kernel k begins with, for its engines and its port. -/
def State.arith (s : State) (k : Kern) : Ar :=
  ⟨k.spr.srseed, 0, (s.core k.core).resvOf k.ctx, (s.context k.ctx).next == 0x7FFF, [], 0⟩

/-- The same for the instruction in the slot that runs: a rerun first hands out the kept indices of its segment (R379), and a
kind that the instruction has already made returns its index (04 R94). -/
def State.slotArith (s : State) : Ar :=
  let k := s.kern s.issue.kid
  let kept := k.kept
  ⟨k.spr.srseed, 0, kept ++ (s.core k.core).resvOf k.ctx, kept.isEmpty && (s.context k.ctx).next == 0x7FFF,
   s.issue.made.map fun e => ⟨e.1, e.2, 0, false⟩, 0⟩

/-- One entry of an instance takes effect: the index leaves the reservation and its log entry is to be filled; an index the
log or the reservation could not give is counted (R364, R366). -/
def State.commitMade (s : State) (k : Nat) (info : OInfo) (m : Made) : State :=
  let x := s.kern k
  if !m.took then
    s.modCtx x.ctx fun c => if m.idx = 0 then { c with miss := satCount c.miss 1 } else { c with ovf := satCount c.ovf 1 }
  else
    let s := s.modCore x.core fun c => c.setResv x.ctx ((c.resvOf x.ctx).drop 1)
    { s with fills := s.fills ++ [⟨x.ctx, m.idx, originEntry m.kind m.idx m.lane s.hub.time info⟩] }

/-- The index joins those that the open segment has obtained (R375). -/
def Kern.obtained (k : Kern) (m : Made) : Kern :=
  { k with seg := k.seg.map fun g =>
    { g with given := g.given + 1, origins := if g.given < g.origins.length then g.origins else g.origins ++ [m.idx] } }

/-- One entry of the slot's instruction takes effect: in a rerun a kept index is handed out again, without a new entry
(R375, R379). -/
def State.commitSlotMade (s : State) (info : OInfo) (m : Made) : State :=
  let k := s.issue.kid
  let s := { s with issue := { s.issue with made := Tab.set s.issue.made m.kind m.idx } }
  if !m.took then s.commitMade k info m
  else
    let t := if (s.kern k).kept.isEmpty then s.commitMade k info m else s
    t.modKern k fun y => y.obtained m

/-- What the arithmetic of the slot's instruction leaves: the LFSR and the entries it has newly made. -/
def State.commitArith (s : State) (info : OInfo) (a : Ar) : State :=
  let n := s.issue.made.length
  let s := s.modKern s.issue.kid fun y => { y with spr := { y.spr with srseed := a.g } }
  (a.made.drop n).foldl (fun t m => t.commitSlotMade info m) s

/-- The entry information of the slot that runs. -/
def State.slotInfo (s : State) (opnd addr : Nat) : OInfo :=
  let k := s.kern s.issue.kid
  ⟨k.n / k.gq * 64 + k.n % k.gq, k.core, 7, s.issue.addr.toNat + s.issue.slot * 2 ^ 11, false, s.slotWord.toNat, opnd, addr⟩

/-- The first 16 bytes of the operands that the slot's instruction has read, for its origin entries (R365). -/
def State.withOpnd (s : State) (n : Nat) : State := { s with issue := { s.issue with opnd := n % 2 ^ 128 } }

/-- Note the operands that the slot's instruction has read, lowest source first. -/
def setOpnd (n : Nat) : Slot Unit := modify fun s => s.withOpnd n

/-- A segment that has obtained more than 16 indices traps (14 R377 reason 8). -/
def checkOrigins : Slot Unit := do
  match (← curKern).seg with
  | some g => if g.origins.length > 16 then throw (.segment 8)
  | none => return

/-- Arithmetic inside a slot: its result and the conditions it raised. -/
def runArith {α : Type} (opnd addr : Nat) (x : Arith α) : Slot (α × BitVec 5) := do
  let s ← get
  let (v, a) := x.run s.slotArith
  set (s.commitArith (s.slotInfo opnd addr) a)
  checkOrigins
  return (v, a.flags)

/-! ## Results (05 R104, R112, R113) -/

/-- The slot's partner holds the shadow of its word, and issues; with NW = 1, bit 24, the shadow does nothing (R112, R113). -/
def State.shadowed (s : State) : Bool :=
  let i := s.issue
  let p := partner i.slot
  let w := bundleSlot i.bundle i.slot
  p != i.slot && hdrPresent (bundleHeader i.bundle) p && decide (i.first ≤ p) && !w.getLsbD 37 && !w.getLsbD 24
    && bundleSlot i.bundle p == (w ||| (1 <<< 37))

/-- Take the physical fault that strikes a slot's next result, if one is to come. -/
def takeSoft (k slot : Nat) : List Soft → VBits × List Soft
  | [] => (0, [])
  | .result k' sl f :: t => if k' = k ∧ sl = slot then (f, t) else let (w, r) := takeSoft k slot t; (w, .result k' sl f :: r)

/-- The bits in which the slot's result differs from the true one, and its check value from the true one: a fault of
the primary strikes both unless a shadow supplies the check bits, and a fault of the shadow strikes those alone. -/
def resultFlips : Slot (VBits × VBits) := do
  let s ← get
  if s.soft.isEmpty then return (0, 0)
  let (f, t) := takeSoft s.issue.kid s.issue.slot s.soft
  if s.shadowed then
    let (g, u) := takeSoft s.issue.kid (partner s.issue.slot) t
    set { s with soft := u }
    return (f, g)
  else
    set { s with soft := t }
    return (f, f)

/-- Put a result in flight: it lands `lat` cycles after this one. -/
def fly (lat : Nat) (dst : FDest) (latch : Bool) (flags : BitVec 5) : Slot Unit := do
  let s ← get
  modCur fun k => { k with flights := k.flights ++
    [⟨k.cyc, k.cyc + lat, s.issue.slot, s.issue.addr.toNat, dst, latch, k.ctl.handler, flags, false⟩] }

/-- A scalar value: 64 bits and a tag per half. -/
structure SVal where
  v : Word
  tl : Bool
  th : Bool
  deriving DecidableEq, Repr, Inhabited

/-- A scalar result into the destination of a slot word, or into the latch alone (03 R53). -/
def writeScalar (o : Op) (lat : Nat) (r : SVal) (flags : BitVec 5) : Slot Unit := do
  let k ← curKern
  let (f, c) ← resultFlips
  let i := if o.nw then none else some (scalarIndex k.ctl.handler (32 * o.dstBank + o.dstIdx))
  fly lat (.sreg i ⟨r.v ^^^ f.setWidth 64, r.tl, r.th, r.v ^^^ c.setWidth 64, false⟩) true flags

/-- A predicate result (05 R103); nothing is written under NW = 1. -/
def writePred (o : Op) (lat : Nat) (v tag : Bool) (org : Origin) (flags : BitVec 5) : Slot Unit := do
  let (f, c) ← resultFlips
  if o.nw then fly lat .flags false flags
  else fly lat (.pred o.dstIdx ⟨v != (f != 0), tag, if tag then org else 0, v != (c != 0)⟩) false flags

/-- A mask result (07 R176) replacing the bits of `sel`. -/
def writeMask (o : Op) (lat : Nat) (v tags : Word) (org : Origin) (sel : Word) (flags : BitVec 5) : Slot Unit := do
  let (f, c) ← resultFlips
  if o.nw then fly lat .flags false flags
  else fly lat (.mask o.dstIdx ⟨v ^^^ f.setWidth 64, tags, if tags = 0 then 0 else org, v ^^^ c.setWidth 64⟩ sel) false flags

/-- A vector result replacing some bytes and tags of its register (07 R172). -/
def writeVector (o : Op) (lat : Nat) (v : VBits) (tags : Word) (bytes : BitVec 256) (tagm : Word) (flags : BitVec 5) :
    Slot Unit := do
  let (f, c) ← resultFlips
  let i := if o.nw then none else some o.dst.toNat
  fly lat (.vreg i ⟨v ^^^ f, tags, v ^^^ c⟩ bytes tagm) true flags

/-! ## Group switches and returning from a handler (05 R109, 14 R357) -/

/-- A group switch: every latch becomes invalid, and results in flight of the stream enter none. -/
def Kern.groupSwitch (k : Kern) : Kern :=
  { k with lat := [], flights := k.flights.map fun f => if f.hnd = k.ctl.handler then { f with latch := false } else f }

/-- A core of the domain still runs a handler that froze it. -/
def State.stillFrozen (s : State) (d : Nat) : Bool :=
  s.kerns.any fun y => y.dom == d && y.ctl.handler && y.ctl.froze

/-- RFT (R357) that found the program counter `pc` in TPC: the handler ends, sa24-sa31 and the latch image return, and
the bundle at `pc` issues 4 cycles later. A vote owed for another bundle is dropped (06 R154). When the last trapped
core of the domain returns, the freeze is released as the earliest of them re-issues (06 R161): each core goes on at its
own DCYC. -/
def State.returnFromHandler (s : State) (k : Nat) (pc : BitVec 14) : State :=
  let x := s.kern k
  let addr := pc.extractLsb' 0 11
  let same := decide (addr = x.ctl.trapAt)
  let froze := x.ctl.froze
  let s := s.modKern k fun y =>
    { y with
      lat := if same then y.latSaved else []
      latSaved := []
      flights := y.flights.map fun f =>
        if f.hnd then { f with latch := false } else { f with latch := f.latch && same }
      ctl := { y.ctl with
        handler := false, froze := false, pc := addr, fetches := y.ctl.fetches + 1, slot := (pc.extractLsb' 11 3).toNat
        gap := if froze then 0 else 4, resumeAt := if froze then some y.ctl.trapDcyc else y.ctl.resumeAt
        owed := match y.ctl.owed with | some v => if v.1 = addr then some v else none | none => none } }
  if froze && !s.stillFrozen x.dom then s.modDom x.dom fun d => { d with release := some 4 } else s

end Sys2Proof.Machine
end

