-- ==== Sys2Proof/Machine/DeviceMem.lean ====
section
/-! DEFINITION. Device memory: translation (09 R228-R231), physical access with marks, uncorrectable sectors and encrypted
lines (04 R93; 14 R368-R370; 16 R419), and the arrival of requests at a pan (09 R234, R236). -/

namespace Sys2Proof.Machine

/-! ## Pan groups -/

/-- The Saltern map entry of a group. -/
def State.pan (s : State) (g : Nat) : Pan := Tab.get Pan.reset s.pans g

/-- The state with one group's entry changed. -/
def State.modPan (s : State) (g : Nat) (f : Pan → Pan) : State :=
  { s with pans := Tab.put Pan.reset s.pans g (f (s.pan g)) }

/-- The group of a physical address. -/
def groupOf (pa : Nat) : Nat := pa / Config.groupBytes

/-- The pan and the offset in it of a group offset (09 R233). -/
def panOf (g x : Nat) : Nat × Nat := (32 * (x / 2 ^ 12 % 8) + g, x / 2 ^ 15 * 2 ^ 12 + x % 2 ^ 12)

/-- Cycles of 600 MHz from a state to ACTIVE: 30 ns, 1.2 us, 40 us (09 R234). -/
def wakeCycles (st : PanSt) : Nat :=
  match st with
  | .idle => 18
  | .retain => 720
  | .deep => 24000
  | _ => 0

/-- Start the wake of a group that is allocated and not awake. -/
def State.startWake (s : State) (g : Nat) : State :=
  s.modPan g fun p =>
    match p.st with
    | .idle | .retain => { p with st := .waking, ready := s.hub.time + wakeCycles p.st, cold := false }
    | _ => p

/-- A request reaches a group: its wake starts where it sleeps (09 R236). -/
def State.touchPan (s : State) (g : Nat) : State :=
  (s.modPan g fun p => { p with touched := s.hub.time }).startWake g

/-! ## Translation (09 R228-R231) -/

/-- The page kind of a leaf. -/
def kindOf (n : Nat) : PageKind :=
  match n with
  | 0 => .so
  | 1 => .rc
  | _ => .uo

/-- The fields of a translation entry (R229). -/
def entryGroup (e : Nat) : Nat := bitsOf e 14 10
/-- GOFF as a byte offset. -/
def entryOff (e : Nat) : Nat := bitsOf e 47 16 * 2 ^ 16
/-- The physical address an entry names. -/
def entryPa (e : Nat) : Nat := entryGroup e * Config.groupBytes + entryOff e

/-- A level of the tree: its lowest address bit, the number of bits it indexes, the page size of a leaf (0: no leaf),
the size of the next level's table (R228). -/
structure Level where
  low : Nat
  width : Nat
  page : Nat
  next : Nat
  last : Bool
  deriving DecidableEq, Repr, Inhabited

/-- The four levels (R228). -/
def levels : List Level :=
  [⟨39, 10, 0, 2 ^ 12, false⟩, ⟨30, 9, 2 ^ 30, 2 ^ 12, false⟩, ⟨21, 9, 2 ^ 21, 256, false⟩, ⟨16, 5, 2 ^ 16, 1, true⟩]

/-- The entry's own fields break R229 at this level (BADENTRY of R230). -/
def badEntry (l : Level) (keyed : Bool) (e : Nat) : Bool :=
  let leaf := bitsOf e 1 1 == 1
  let off := entryOff e
  bitsOf e 63 48 != 0 || bitsOf e 15 15 != 0 || bitsOf e 2 2 != 0
    || (leaf && l.page == 0) || (!leaf && l.last)
    || decide (Config.groupBytes ≤ off)
    || (if leaf then bitsOf e 6 5 == 3 || off % l.page != 0 || (bitsOf e 9 9 == 1 && !keyed)
        else bitsOf e 9 3 != 0 || off % l.next != 0)

/-- The tweak of a line: its offset in its group, with the group in bits 52:48 (16 R419). -/
def tweakOf (line : Nat) : Nat := 64 * line % Config.groupBytes + groupOf (64 * line) * 2 ^ 48

/-- The ciphertext of a line that has been written through a page with ENC, under the keys that it was written with (16 R419). A line
that nothing has written since its group's initialisation holds zeros on every page (09 R235). -/
def State.cipherLine (s : State) (line : Nat) : Option (List Byte) :=
  match Tab.get? s.encTag line with
  | none | some 0 => none
  | some t => some (Config.encLine (Tab.get [] s.hub.keyring t) (tweakOf line) (s.mem.read (64 * line) 64)).toList

/-- Bytes of one line as they are read through a page with or without ENC: without it, those of an encrypted line are its ciphertext,
but for marked sectors (16 R419). -/
def State.readPhys (s : State) (enc : Bool) (pa n : Nat) : List Byte :=
  match (if enc then none else s.cipherLine (pa / 64)) with
  | none => s.mem.read pa n
  | some c => (List.range n).map fun i =>
      if (Tab.get? s.marks ((pa + i) / 32)).isSome then s.mem.byte (pa + i) else c.getD ((pa + i) % 64) 0

/-- Eight little-endian bytes of physical memory, as a walk reads them. -/
def State.physWord (s : State) (pa : Nat) : Nat := leNat (s.readPhys false pa 8)

/-- A walk from a table downwards (R230): a leaf with its level, or a fault kind. -/
def State.walkFrom (s : State) (keyed : Bool) (va : Nat) (write : Bool) : List Level → Nat → Except Nat TlbEntry
  | [], _ => .error 0x2
  | l :: ls, table =>
    let e := s.physWord (table + 8 * (va / 2 ^ l.low % 2 ^ l.width))
    let leaf := bitsOf e 1 1 == 1
    if e % 2 = 0 then .error 0x1
    else if badEntry l keyed e then .error 0x2
    else if leaf && (if write then bitsOf e 4 4 == 0 else bitsOf e 3 3 == 0) then .error 0x3
    else if !(s.pan (entryGroup e)).alloc then .error 0x4
    else if leaf then .ok ⟨0, 0, va / l.page * l.page, l.page, wordOf e⟩
    else s.walkFrom keyed va write ls (entryPa e)

/-- A page walk of a context (R230). A root table that would lie beyond its group reads as a bad entry. -/
def State.walk (s : State) (ctx va : Nat) (write : Bool) : Except Nat TlbEntry :=
  let c := s.context ctx
  let off := c.rootoff.toNat * 2 ^ 13
  if !(s.pan c.rootg.toNat).alloc then .error 0x4
  else if Config.groupBytes ≤ off then .error 0x2
  else s.walkFrom (c.keySt == 1) va write levels (c.rootg.toNat * Config.groupBytes + off)

/-! ## The reads of a walk at the pans (R230; 09 R235, R236) -/

/-- The physical addresses of the entries that a walk reads from a table downwards. -/
def State.readsFrom (s : State) (keyed : Bool) (va : Nat) : List Level → Nat → List Nat
  | [], _ => []
  | l :: ls, table =>
    let pa := table + 8 * (va / 2 ^ l.low % 2 ^ l.width)
    let e := s.physWord pa
    pa :: if e % 2 = 0 ∨ badEntry l keyed e ∨ bitsOf e 1 1 = 1 ∨ (s.pan (entryGroup e)).alloc = false then []
      else s.readsFrom keyed va ls (entryPa e)

/-- The groups of the entries that a walk of a context reads, in order. -/
def State.tableGroups (s : State) (ctx va : Nat) : List Nat :=
  let c := s.context ctx
  let off := c.rootoff.toNat * 2 ^ 13
  if !(s.pan c.rootg.toNat).alloc || decide (Config.groupBytes ≤ off) then []
  else (s.readsFrom (c.keySt == 1) va levels (c.rootg.toNat * Config.groupBytes + off)).map groupOf

/-- A group performs requests: it is ACTIVE and initialised. -/
def State.panReady (s : State) (g : Nat) : Bool := (s.pan g).st == .active && !(s.pan g).init

/-- The group at which a walk of a context waits. -/
def State.waitsAt (s : State) (ctx va : Nat) : Option Nat := (s.tableGroups ctx va).find? fun g => !s.panReady g

/-- Requests reach groups one after the other, as far as the first that does not perform them; whether all do. -/
def State.reachGroups (s : State) : List Nat → State × Bool
  | [] => (s, true)
  | g :: t =>
    let s := s.touchPan g
    if s.panReady g then s.reachGroups t else (s, false)

/-- The reads of a walk of a context reach their pans: one that sleeps or is being initialised makes the walk wait. -/
def State.reachTables (s : State) (ctx va : Nat) : State × Bool := s.reachGroups (s.tableGroups ctx va)

/-- The same of several addresses, one after the other. -/
def State.reachAll (s : State) (ctx : Nat) : List Nat → State × Bool
  | [] => (s, true)
  | va :: t =>
    match s.reachTables ctx va with
    | (s, true) => s.reachAll ctx t
    | (s, false) => (s, false)

/-- What a leaf makes of an address. -/
def TlbEntry.trans (t : TlbEntry) (va : Nat) : Trans :=
  let e := t.leaf.toNat
  ⟨va, entryPa e + (va - t.base), kindOf (bitsOf e 6 5), bitsOf e 8 8 == 1, bitsOf e 7 7 == 1, bitsOf e 9 9 == 1,
   bitsOf e 3 3 == 1, bitsOf e 4 4 == 1⟩

/-- A translation that the walk of the moment gives. -/
def State.translate (s : State) (ctx va : Nat) (write : Bool) : Except Nat Trans :=
  match s.walk ctx va write with
  | .ok t => .ok (t.trans va)
  | .error e => .error e

/-- The cluster cache's translation of an address, if it permits the access and its group is still allocated (R231,
R235). -/
def State.cached (s : State) (cluster ctx va : Nat) (write : Bool) : Option Trans :=
  match s.tlb.find? (fun t => t.cluster == cluster && t.ctx == ctx && decide (t.base ≤ va) && decide (va < t.base + t.size)) with
  | none => none
  | some t =>
    let x := t.trans va
    if (if write then x.w else x.rd) && (s.pan (groupOf x.pa)).alloc then some x else none

/-- Enter a translation into a cluster's cache of 1,024 entries (R231); a full one gives up the entry filled longest ago (log 110:
DESIGN CHOICE). -/
def State.cacheFill (s : State) (cluster ctx : Nat) (t : TlbEntry) : State :=
  let own := s.tlb.filter fun x => x.cluster == cluster
  let rest := s.tlb.filter fun x => x.cluster != cluster
  { s with tlb := { t with cluster := cluster, ctx := ctx } :: own.take 1023 ++ rest }

/-! ## Replayable faults (09 R232) -/

/-- The number by which EVENT and FAULTCTL name a requester (15 R388, 16 R413). -/
def State.requesterNumber (s : State) (r : Requester) : Nat :=
  match r with
  | .port c => (Config.requester c 7).toNat
  | .engine k e => (Config.requester k e).toNat
  | .queue q => 2 ^ 31 + q
  | .placement l => match Tab.get? s.launches l with | some x => 2 ^ 31 + x.q | none => 2 ^ 31
  | .remote via src => (Config.requester (via * 2 ^ 17 + src) 8).toNat

/-- The requester has a pending fault. -/
def State.heldBy (s : State) (r : Requester) : Bool := s.rfaults.any fun f => f.req == r

/-- A replayable fault: pending, and the host is sent EVENT 0x02 (R232). A context with an uncontained fault reports no other:
that fault drops its accesses (14 R382). -/
def State.replayable (s : State) (r : Requester) (ctx va code : Nat) (from_ : Nat := 0) : State :=
  if s.heldBy r || s.ufaults.any (fun f => f.ctx == ctx) then s
  else { s with
    rfaults := s.rfaults ++ [⟨ctx, va, code, r, from_⟩]
    out := s.out ++ [.event 0x02 ctx va (code + s.requesterNumber r * 2 ^ 16) []] }

/-! ## Origins outside a slot -/

/-- One index for an event of kernel k. -/
def State.kernOrigin (s : State) (k kind : Nat) (info : OInfo) : Origin × State :=
  let (o, a) := (newOrigin kind).run (s.arith (s.kern k))
  (o, a.made.foldl (fun t m => t.commitMade k info m) s)

/-- One index for the instruction in the slot that runs. -/
def State.slotOrigin (s : State) (kind : Nat) (info : OInfo) : Origin × State :=
  let (o, a) := (newOrigin kind).run s.slotArith
  (o, s.commitArith info a)

/-- The key of a die's reservation for a context. -/
def dieKey (die ctx : Nat) : Nat := die * 64 + ctx

/-- The arithmetic state of an instance of the link engine that serves kernel k: it draws on the reservation of its die
(14 R366). -/
def State.dieArith (s : State) (k : Kern) : Ar :=
  ⟨0, 0, Tab.get [] s.hub.dieResv (dieKey (k.core / 64) k.ctx), (s.context k.ctx).next == 0x7FFF, [], 0⟩

/-- One entry of such an instance takes effect. -/
def State.commitDie (s : State) (k : Nat) (info : OInfo) (m : Made) : State :=
  let x := s.kern k
  if !m.took then
    s.modCtx x.ctx fun c => if m.idx = 0 then { c with miss := satCount c.miss 1 } else { c with ovf := satCount c.ovf 1 }
  else
    let key := dieKey (x.core / 64) x.ctx
    { s with
      hub := { s.hub with dieResv := Tab.put [] s.hub.dieResv key ((Tab.get [] s.hub.dieResv key).drop 1) }
      fills := s.fills ++ [⟨x.ctx, m.idx, originEntry m.kind m.idx m.lane s.hub.time info⟩] }

/-- One index for an event of the link engine. -/
def State.dieOrigin (s : State) (k kind : Nat) (info : OInfo) : Origin × State :=
  let (o, a) := (newOrigin kind).run (s.dieArith (s.kern k))
  (o, a.made.foldl (fun t m => t.commitDie k info m) s)

/-- One index taken directly from a context's log by the hub (14 R368, R369). -/
def State.hubOrigin (s : State) (ctx kind : Nat) (info : OInfo) : Origin × State :=
  let c := s.context ctx
  if c.next = 0x7FFF then (0x7FFF, s.modCtx ctx fun x => { x with ovf := satCount x.ovf 1 })
  else
    let o := BitVec.ofNat 15 c.next
    let s := s.modCtx ctx fun x => { x with next := x.next + 1 }
    (o, { s with fills := s.fills ++ [⟨ctx, o, originEntry kind o 0 s.hub.time info⟩] })

/-- Who takes an origin at a first consumption: a kernel (its port, slots or engines), a die's link engine, or the hub
for a context. -/
inductive Taker where
  | kern (k source location insn : Nat)
  /-- A kernel's slot operation whose effect comes after its slot, with its operands and the origins that it has made. -/
  | late (k location insn opnd : Nat) (made : Tab Origin)
  /-- A stream generator of a kernel, for the SPAT or SRST that set it going. -/
  | stream (k st : Nat)
  | hub (ctx source : Nat)
  deriving DecidableEq, Repr, Inhabited

/-- The index of a kind that a running operation of an engine has made. -/
def Kern.madeBy (k : Kern) (e id kind : Nat) : Option Origin :=
  ((k.port e).runs.find? fun r => r.op.id.toNat == id).bind fun r => Tab.get? r.origins kind

/-- The index that an engine's operation takes: one of each kind for the operation (04 R94). -/
def State.runOrigin (s : State) (k e id kind : Nat) (info : OInfo) : Origin × State :=
  match (s.kern k).madeBy e id kind with
  | some o => (o, s)
  | none =>
    let (o, s) := if e = 6 then s.dieOrigin k kind info else s.kernOrigin k kind info
    (o, s.modKern k fun y => y.modPort e fun p => p.modRun id fun r => { r with origins := Tab.set r.origins kind o })

/-- An index for a taker: one of each kind for an instruction in its slot, a generator's fetches or an engine's operation (04 R94). -/
def State.takeOrigin (s : State) (t : Taker) (kind addr : Nat) : Origin × State :=
  let infoOf := fun (k src loc insn opnd : Nat) =>
    let x := s.kern k
    (⟨x.n / x.gq * 64 + x.n % x.gq, x.core, src, loc, false, insn, opnd, addr⟩ : OInfo)
  match t with
  | .late k loc insn opnd made =>
    match Tab.get? made kind with
    | some o => (o, s)
    | none => s.kernOrigin k kind (infoOf k 7 loc insn opnd)
  | .stream k st =>
    match Tab.get? (s.kern k).streams st with
    | none => s.kernOrigin k kind (infoOf k 7 0 0 0)
    | some x =>
      match Tab.get? x.made kind with
      | some o => (o, s)
      | none =>
        let (o, s) := s.kernOrigin k kind (infoOf k 7 x.loc x.insn x.opnd)
        (o, s.modKern k fun y => { y with streams := Tab.set y.streams st { x with made := Tab.set x.made kind o } })
  | .kern k src loc insn =>
    if src < 7 then s.runOrigin k src loc kind (infoOf k src loc insn 0)
    else if s.issue.active ∧ s.issue.kid = k then s.slotOrigin kind (infoOf k src loc insn s.issue.opnd)
    else s.kernOrigin k kind (infoOf k src loc insn 0)
  | .hub ctx src => s.hubOrigin ctx kind ⟨0, 0, src, 0, false, 0, 0, addr⟩

/-! ## Physical access -/

/-- The sectors that n bytes from an address touch. -/
def sectorsOf (pa n : Nat) : List Nat :=
  if n = 0 then [] else (List.range ((pa + n - 1) / 32 - pa / 32 + 1)).map (· + pa / 32)

/-- Cut n bytes from an address into pieces within units of `u` bytes: offset, address, length. -/
def cutPieces (u : Nat) : Nat → Nat → Nat → Nat → List (Nat × Nat × Nat)
  | 0, _, _, _ => []
  | fuel + 1, off, a, n =>
    if n = 0 then []
    else
      let m := min n (u - a % u)
      (off, a, m) :: cutPieces u fuel (off + m) (a + m) (n - m)

/-- A marked sector's 32 bytes: the origin in bytes 1:0, then zeros (R93). -/
def markBytes (o : Origin) : List Byte := leBytes 32 o.toNat

/-- Mark a sector with an origin. -/
def State.markPhys (s : State) (sec : Nat) (o : Origin) : State :=
  { s with mem := s.mem.writeAll (32 * sec) (markBytes o), marks := Tab.set s.marks sec o
           ue := s.ue.filter (· != sec), ce := s.ce.filter (· != sec) }

/-- What stands as the integrity tag of a line: 0 for none, else the context and key it was written under. -/
def State.lineTag (s : State) (line : Nat) : Nat :=
  match Tab.get? s.encTag line with
  | some t => t
  | none => (s.pan (groupOf (64 * line))).enc

/-- The tag that a context's key makes. -/
def State.ctxTag (s : State) (ctx : Nat) : Nat := ctx + 1 + 128 * (s.context ctx).keyid.toNat

/-- What stands as a line's integrity tag from now on. -/
def State.setTag (s : State) (line t : Nat) : State :=
  if Tab.get? s.encTag line = some t then s else { s with encTag := Tab.set s.encTag line t }

/-- A line written through a page with ENC is written through one without: its bytes are from then on their ciphertext (16 R419). -/
def State.decipherLine (s : State) (line : Nat) : State :=
  match s.cipherLine line with
  | none => s
  | some cipher =>
    let put := fun (s : State) (i : Nat) =>
      if (Tab.get? s.marks (2 * line + i)).isSome then s
      else { s with mem := s.mem.writeAll (64 * line + 32 * i) ((cipher.drop (32 * i)).take 32) }
    (put (put s 0) 1).setTag line 0

/-- ADDR of an origin entry for a physical address of a translated page: the virtual address, with the code of device memory
(14 R365). -/
def Trans.logAddr (t : Trans) (pa : Nat) : Nat := pa + t.va - t.pa + 2 ^ 51

/-- An access to sectors whose error the ECC corrects rewrites them, and management counts each (14 R368, R371). -/
def State.correct (s : State) (secs : List Nat) : State :=
  let hit := secs.filter s.ce.contains
  if hit.isEmpty then s
  else { s with ce := s.ce.filter fun x => !hit.contains x, hub := s.hub.countUp 0 hit.length }

/-- First consumption of a line's and its sectors' errors by an access (14 R368, R370): an uncorrectable sector that is
not yet marked, and on an ENC page a line whose tag does not verify, are marked with the reader's origin; a correctable sector
is corrected. -/
def State.consume (s : State) (t : Taker) (tr : Trans) (ctx pa n : Nat) : State :=
  let line := pa / 64
  let enc := tr.enc
  let s :=
    if enc && s.lineTag line != s.ctxTag ctx then
      let (o, s) := s.takeOrigin t kTAGFAIL (tr.logAddr pa)
      let s := ((s.markPhys (2 * line) o).markPhys (2 * line + 1) o).setTag line (s.ctxTag ctx)
      { s with hub := { s.hub with scrubTable := s.hub.scrubTable.filter fun x => x.1 / 2 != line } }
    else s
  (sectorsOf pa n).foldl (fun s sec =>
    if s.ue.contains sec && (Tab.get? s.marks sec).isNone then
      let hit := s.hub.scrubTable.find? fun x => x.1 == sec
      let kind := match hit with | some (_, tag) => if tag then kTAGFAIL else kSCRUBUE | none => kMEMUE
      let s := { s with hub := { s.hub with scrubTable := s.hub.scrubTable.filter fun x => x.1 != sec } }
      let (o, s) := s.takeOrigin t kind (tr.logAddr (32 * sec))
      s.markPhys sec o
    else s) (s.correct (sectorsOf pa n))

/-- The mark of a sector. -/
def State.physMark (s : State) (sec : Nat) : Option Origin := Tab.get? s.marks sec

/-- The bytes of a line entry's read, with the mark of each byte's sector. -/
def State.readBytes (s : State) (enc : Bool) (pa n : Nat) : List CByte :=
  ((List.range n).zip (s.readPhys enc pa n)).map fun e => ⟨e.2, s.physMark ((pa + e.1) / 32)⟩

/-- The bytes of a write that fall into a sector. -/
def sliceFor (pa : Nat) (bytes : List Byte) (sec : Nat) : Nat × List Byte :=
  let lo := max pa (32 * sec)
  let hi := min (pa + bytes.length) (32 * sec + 32)
  (lo, (bytes.drop (lo - pa)).take (hi - lo))

/-- Write the sectors of a line that take a write: a whole sector loses its mark and its error; part of a marked sector changes
nothing of it (R93). -/
def State.writeSectors (s : State) (pa : Nat) (bytes : List Byte) : State :=
  (sectorsOf pa bytes.length).foldl (fun s sec =>
    let (a, bs) := sliceFor pa bytes sec
    if bs.length = 32 then
      { s with mem := s.mem.writeAll a bs, marks := s.marks.erase sec
               ue := s.ue.filter (· != sec), ce := s.ce.filter (· != sec) }
    else if (s.physMark sec).isSome then s else { s with mem := s.mem.writeAll a bs }) s

/-- Write bytes within one line (R93, R368): part of an uncorrectable sector is its first consumption, as `consume` has it. A write
that changes something makes the line one of its page (16 R419). -/
def State.writePhys (s : State) (t : Taker) (tr : Trans) (ctx pa : Nat) (bytes : List Byte) : State :=
  let line := pa / 64
  let enc := tr.enc
  let s := if enc && bytes.length != 64 then s.consume t tr ctx pa 0 else s
  let s := (sectorsOf pa bytes.length).foldl (fun s sec =>
    let (a, bs) := sliceFor pa bytes sec
    if bs.length = 32 then s else s.consume t tr ctx a bs.length) s
  if (sectorsOf pa bytes.length).all fun sec => (sliceFor pa bytes sec).2.length != 32 && (s.physMark sec).isSome then s
  else
    let s := (if enc then s else s.decipherLine line).writeSectors pa bytes
    if enc then s.setTag line (s.ctxTag ctx) else if s.lineTag line = 0 then s else s.setTag line 0

/-! ## Perform (13 R332) -/

/-- A queue waits on the word of a WAITVAL, of 4 or 8 bytes by its W, that meets the bytes written (15 R402). -/
def State.noteWrite (s : State) (pa n : Nat) : State :=
  { s with queues := s.queues.map fun e =>
    match e.2.cur.getLast? with
    | some r =>
      if r.bytes.headD 0 = 4 ∧ r.phase = .busy then
        match s.translate e.2.ctx (leNat ((r.bytes.drop 16).take 8)) false with
        | .ok t => if t.pa < pa + n ∧ pa < t.pa + (if leNat ((r.bytes.drop 40).take 1) / 4 % 2 = 1 then 8 else 4) then (e.1, { e.2 with reread := true }) else e
        | .error _ => e
      else e
    | none => e }

/-- Bytes are written at a line queue. -/
def State.performWrite (s : State) (t : Taker) (tr : Trans) (ctx pa : Nat) (bytes : List Byte) : State :=
  (s.writePhys t tr ctx pa bytes).noteWrite pa bytes.length

/-- A sector is marked at a line queue. -/
def State.performMark (s : State) (pa : Nat) (o : Origin) : State := (s.markPhys (pa / 32) o).noteWrite (pa / 32 * 32) 32

/-! ## The hub's accesses -/

/-- A line queue. -/
def State.line (s : State) (ln : Nat) : List LEntry := Tab.get [] s.lines ln

/-- An access of the hub to one line: a fault kind; or the state with the wake begun of a group that its walk reads or that it
reaches, and the translation once every one of them performs requests and nothing stands at the line's queue. -/
def State.hubAccess (s : State) (ctx va : Nat) (write : Bool) : Except Nat (State × Option Trans) :=
  match s.reachTables ctx va with
  | (s, false) => .ok (s, none)
  | (s, true) =>
    match s.translate ctx va write with
    | .error e => .error e
    | .ok t =>
      let s := s.touchPan (groupOf t.pa)
      if (s.line (t.pa / 64)).isEmpty && s.panReady (groupOf t.pa) then .ok (s, some t) else .ok (s, none)

/-- The hub writes bytes of one line: the state, and whether the write was made; none on a fault. -/
def State.hubWrite (s : State) (ctx va : Nat) (bytes : List Byte) : Except Nat (State × Bool) :=
  match s.hubAccess ctx va true with
  | .error e => .error e
  | .ok (s, none) => .ok (s, false)
  | .ok (s, some t) => .ok (s.performWrite (.hub ctx 9) t ctx t.pa bytes, true)

/-- The hub reads bytes of one line, with the marks of their sectors. -/
def State.hubRead (s : State) (ctx va n : Nat) : Except Nat (State × Option (List CByte)) :=
  match s.hubAccess ctx va false with
  | .error e => .error e
  | .ok (s, none) => .ok (s, none)
  | .ok (s, some t) =>
    let s := s.consume (.hub ctx 9) t ctx t.pa n
    .ok (s, some (s.readBytes t.enc t.pa n))

/-- The lines of a range reach their pans: whether every one that translates can be performed now. -/
def State.hubReach (s : State) (ctx va n : Nat) (write : Bool) : State × Bool :=
  (cutPieces 64 (n / 64 + 2) 0 va n).foldl (fun acc p =>
    match acc.1.hubAccess ctx p.2.1 write with
    | .error _ => acc
    | .ok (s, t) => (s, acc.2 && t.isSome)) (s, true)

end Sys2Proof.Machine
end

