-- ==== Sys2Proof/Machine/Operands.lean ====
section
/-! DEFINITION. Source operands (03 R54, R55; 05 R108, R115; 07 R171), lanes, guards and the checks a slot makes before its
instruction's own (03 R50, R64; 05 R112; 07 R173). -/

namespace Sys2Proof.Machine

/-! ## Scalar operands -/

/-- Zero, untagged. -/
def SVal.zero : SVal := ⟨0, false, false⟩

/-- An untagged value. -/
def SVal.plain (v : Word) : SVal := ⟨v, false, false⟩

/-- The origin of a tagged value: bits 14:0 (R87, R125). -/
def SVal.origin (x : SVal) : Origin := x.v.setWidth 15

/-- A value cut to the operation's width: bits 31:0 and the low tag for .w32 (R115). -/
def SVal.cut (w64 : Bool) (x : SVal) : SVal := if w64 then x else ⟨(x.v.setWidth 32).setWidth 64, x.tl, false⟩

/-- A tag is set on a half the value spans. -/
def SVal.tagged (x : SVal) : Bool := x.tl || x.th

/-- Tagged(o) at a width (R94, R115). -/
def SVal.poison (w64 : Bool) (o : Origin) : SVal := ⟨o.setWidth 64, true, w64⟩

/-- The origin of an operand, if it is tagged. -/
def SVal.org? (x : SVal) : Option Origin := if x.tagged then some x.origin else none

/-- A literal or constant selector's value, sign-extended to 64 bits (03 R54). -/
def literalValue (b : BitVec 512) (sel : Nat) : Word :=
  let h := fun k => (bundleHalf b k).toNat
  if sel < 0x99 then ((bundleHalf b (sel - 0x90)).signExtend 64)
  else if sel < 0xA8 then
    let k := sel - 0xA0
    (BitVec.ofNat 32 (h k + 2 ^ 16 * h (k + 1))).signExtend 64
  else if sel < 0xB6 then
    let k := sel - 0xB0
    wordOf (h k + 2 ^ 16 * h (k + 1) + 2 ^ 32 * h (k + 2) + 2 ^ 48 * h (k + 3))
  else if sel < 0xE0 then (BitVec.ofNat 64 sel) - 0xD0
  else 0

/-- Read a latch (R107-R109). -/
def readLatch (n : Nat) : Slot LVal := do
  match Tab.get? (← curKern).lat n with
  | none => trapWord 0x04 0
  | some (.sc v tl th c) =>
    if detects (v ^^^ c) then throw .pipe
    return .sc v tl th c
  | some (.ve r) =>
    if vdetects r.v r.chk then throw .pipe
    return .ve r

/-- Read a predicate as a source: 0 or 1, or Tagged(its origin) (R54, R87). -/
def predValue (i : Nat) : Slot SVal := do
  let p ← readPred i
  return if p.tag then .poison true p.org else .plain (if p.v then 1 else 0)

/-- The gang coordinate s x 64 + q of a kernel. -/
def Kern.coordNat (k : Kern) : Nat := k.n / k.gq * 64 + k.n % k.gq

/-- A scalar source (R54, R55). -/
def readScalar (sel : BitVec 8) : Slot SVal := do
  let n := sel.toNat
  if n < 0x80 then
    let k ← curKern
    let r ← readReg (scalarIndex k.ctl.handler n)
    return ⟨r.v, r.tl, r.th⟩
  else if n < 0x8E then
    match ← readLatch (n - 0x80) with
    | .sc v tl th _ => return ⟨v, tl, th⟩
    | .ve r => return ⟨r.v.setWidth 64, r.tags.getLsbD 0, r.tags.getLsbD 1⟩
  else if n < 0xE0 then return .plain (literalValue (← get).issue.bundle n)
  else if n < 0xF0 then predValue (n - 0xE0)
  else if n = 0xF2 then return .plain (wordOf (← curKern).coordNat)
  else return .zero

/-- A scalar source at the operation's width. -/
def readWidth (w64 : Bool) (sel : BitVec 8) : Slot SVal := do return (← readScalar sel).cut w64

/-- The destination register of a destination-read form (03 R53). -/
def readDest (o : Op) (w64 : Bool) : Slot SVal := do
  let k ← curKern
  let r ← readReg (scalarIndex k.ctl.handler (32 * o.dstBank + o.dstIdx))
  return (SVal.mk r.v r.tl r.th).cut w64

/-! ## Lanes -/

/-- A vector operand: 256 bytes and a tag per 32-bit element. -/
structure VOp where
  v : VBits
  tags : Word
  deriving DecidableEq, Repr, Inhabited

/-- The number of lanes. -/
def lanesOf (w64 : Bool) : Nat := if w64 then 32 else 64
/-- The width of a lane. -/
def laneWidth (w64 : Bool) : Nat := if w64 then 64 else 32

/-- The bits of lane i. -/
def VOp.lane (x : VOp) (w64 : Bool) (i : Nat) : Nat := (x.v.extractLsb' (laneWidth w64 * i) (laneWidth w64)).toNat

/-- Whether lane i is tagged: a 64-bit lane spans two tags (07 R170). -/
def VOp.tag (x : VOp) (w64 : Bool) (i : Nat) : Bool :=
  if w64 then x.tags.getLsbD (2 * i) || x.tags.getLsbD (2 * i + 1) else x.tags.getLsbD i

/-- The origin of a tagged lane. -/
def VOp.org? (x : VOp) (w64 : Bool) (i : Nat) : Option Origin :=
  if x.tag w64 i then some (BitVec.ofNat 15 (x.lane w64 i)) else none

/-- Numbers of `w` bits each, the first lowest, as one number. -/
def packNat (w : Nat) : List Nat → Nat
  | [] => 0
  | x :: t => x % 2 ^ w + 2 ^ w * packNat w t

/-- Booleans as bits, the first lowest. -/
def packBits : List Bool → Nat
  | [] => 0
  | b :: t => (if b then 1 else 0) + 2 * packBits t

/-- One value in every lane. -/
def broadcast (w64 : Bool) (x : SVal) : VOp :=
  if w64 then ⟨BitVec.ofNat 2048 (packNat 64 (List.replicate 32 x.v.toNat)),
    BitVec.ofNat 64 (packBits ((List.replicate 32 [x.tl, x.th]).flatten))⟩
  else ⟨BitVec.ofNat 2048 (packNat 32 (List.replicate 64 x.v.toNat)), if x.tl then BitVec.allOnes 64 else 0⟩

/-- A vector source (07 R171). -/
def readVector (w64 : Bool) (sel : BitVec 8) : Slot VOp := do
  let n := sel.toNat
  if n < 0x80 then
    let r ← readVReg n
    return ⟨r.v, r.tags⟩
  else if n < 0x8E then
    match ← readLatch (n - 0x80) with
    | .sc v tl th _ => return broadcast w64 ⟨v, tl, th⟩
    | .ve r => return ⟨r.v, r.tags⟩
  else if n = 0xF1 then
    return ⟨BitVec.ofNat 2048 (packNat (laneWidth w64) (List.range (lanesOf w64))), 0⟩
  else return broadcast w64 (← readScalar sel)

/-- The destination register of a vector destination-read form. -/
def readVDest (o : Op) : Slot VOp := do
  let r ← readVReg o.dst.toNat
  return ⟨r.v, r.tags⟩

/-- The mask bits that an operation of a lane shape consults. -/
def laneMask (w64 : Bool) : Word := if w64 then 0xFFFF_FFFF else BitVec.allOnes 64

/-- The bits of a mask used for control: a tagged bit among those consulted traps POISON-BRANCH (07 R172). -/
def maskBits (m : MaskReg) (w64 : Bool) : Slot Word := do
  if m.tags &&& laneMask w64 ≠ 0 then trapWord 0x10 m.org
  return m.v &&& laneMask w64

/-- A mask read for control. -/
def controlMask (i : Nat) (w64 : Bool) : Slot Word := do maskBits (← readMask i) w64

/-- The bytes of the lanes that a mask selects. -/
def laneBytes (w64 : Bool) (m : Word) : BitVec 256 :=
  let n := if w64 then 8 else 4
  if m = laneMask w64 then BitVec.allOnes 256
  else BitVec.ofNat 256 (packNat n ((List.range (lanesOf w64)).map fun i => if m.getLsbD i then 2 ^ n - 1 else 0))

/-- The tags of the lanes that a mask selects. -/
def laneTags (w64 : Bool) (m : Word) : Word :=
  if w64 then BitVec.ofNat 64 (packNat 2 ((List.range 32).map fun i => if m.getLsbD i then 3 else 0)) else m

/-- A result lane: its bits and whether it is poison. -/
abbrev Lane := Nat × Bool

/-- The value of a poison integer lane: the origin in each element it spans (07 R170). -/
def taggedLane (w64 : Bool) (o : Origin) : Lane := (if w64 then o.toNat + 2 ^ 32 * o.toNat else o.toNat, true)

/-- Lanes packed into a register's bits and tags. -/
def packLanes (w64 : Bool) (l : List Lane) : VOp :=
  ⟨BitVec.ofNat 2048 (packNat (laneWidth w64) (l.map (·.1))),
   if w64 then BitVec.ofNat 64 (packBits (l.flatMap fun x => [x.2, x.2])) else BitVec.ofNat 64 (packBits (l.map (·.2)))⟩

/-- Compute the selected lanes in ascending order; the others are zero (07 R172, R175). -/
def forLanes (sel : Word) (f : Nat → Arith Lane) : Nat → Nat → Arith (List Lane)
  | 0, _ => pure []
  | n + 1, i => do
    let x ← if sel.getLsbD i then (do
        modify fun a => { a with lane := i }
        f i) else pure (0, false)
    let t ← forLanes sel f n (i + 1)
    return x :: t

/-- Write the lanes of a vector operation under its write mask. -/
def writeLanes (o : Op) (lat : Nat) (w64 : Bool) (m : Word) (l : List Lane) (flags : BitVec 5) : Slot Unit :=
  let r := packLanes w64 l
  writeVector o lat r.v r.tags (laneBytes w64 m) (laneTags w64 m) flags

/-! ## The checks of a slot (03 R64) -/

/-- The forms that occupy a V slot for 2 cycles (07 R173, R183, R186). -/
def isBinary64 (i : Instr) : Bool :=
  match i with
  | .vadd o | .vsub o | .vmul o | .vfma o | .vfms o | .vfnma o | .vdiv o | .vsqrt o | .vrcp o | .vrsq o | .vexp2 o
  | .vlog2 o | .vmin o | .vmax o | .vsgn o | .vcmp o | .vclass o => o.w
  | .vcvt o => [0, 1, 10, 11, 12, 13, 14, 15].contains (o.b &&& 0x1F).toNat
  | .vred o | .vscan o => o.w && o.b.toNat != 3
  | _ => false

/-- The destination of a V operation lies in a bank lent to the M slot (05 R114). -/
def writesLent (k : Kern) (i : Instr) (slot : Nat) (o : Op) : Bool :=
  (slot == 3 || slot == 4) && !o.nw
    && (match i.form with | some f => f.dest == .vreg | none => false)
    && ((o.dstBank == 1 && k.mat.lentB) || (o.dstBank == 3 && k.mat.lentD))

/-- A shadow form's partner slot is present in this issue and holds the same word but for bit 37 (05 R112; 03 R60). -/
def shadowArranged (i : Issue) : Bool :=
  let p := partner i.slot
  p != i.slot && hdrPresent (bundleHeader i.bundle) p && decide (i.first ≤ p)
    && bundleSlot i.bundle i.slot == (bundleSlot i.bundle p ||| (1 <<< 37)) && !(bundleSlot i.bundle p).getLsbD 37

/-- The occupancy of a V slot by a binary64 form of the cycle before (07 R173). -/
def occupied (k : Kern) (slot : Nat) : Bool :=
  (slot == 3 && k.ctl.occ0 == some k.cyc) || (slot == 4 && k.ctl.occ1 == some k.cyc)

/-- Engine e is allotted to the kernel: its copy channels, the circuit engine with the whole NS, the others always. -/
def Kern.allots (k : Kern) (e : Nat) : Bool :=
  if e < 4 then decide (e < k.res.copy) else if e = 5 then k.res.ns == 256 else decide (e < 7)

/-- The status indices that ERD reads of an engine (09 R252; 11 R310; 12 R328; 16 R415). -/
def erdCount (e : Nat) : Nat := if e < 4 then 7 else if e < 6 then 8 else 5

/-- The field limits that a kernel's allotment sets: tensor indices and stream indices (08 R219; 07 R192; 06 R162), engine
numbers (06 R162; 09 R243). -/
def Kern.limitsOk (k : Kern) (i : Instr) : Bool :=
  match i with
  | .tdef o | .trd o | .waito o => decide (o.m.toNat < k.res.tdt)
  | .ownGive o | .ownTake o => decide (o.a.toNat < k.res.tdt)
  | .spat o | .srst o | .srstClr o => decide ((o.m.extractLsb' 0 3).toNat < k.res.st)
  | .vld o => decide (o.a.toNat < k.res.st)
  | .vst o => decide (o.b.toNat < k.res.st)
  | .waitx o | .ewr o => k.allots (o.m.extractLsb' 0 3).toNat
  | .erd o =>
    k.allots (o.m.extractLsb' 0 3).toNat && decide ((o.m.extractLsb' 3 4).toNat < erdCount (o.m.extractLsb' 0 3).toNat)
  | .egoCopy o => k.allots o.egoEngine
  | .egoCload _ | .egoEval _ | .egoPupd _ | .egoPflip _ | .egoCstat _ => k.allots 5
  | _ => true

/-- Check 2 of R64: the fields and their limits, the shadow arrangement, the occupancy conflict. -/
def checkFields (i : Instr) (o : Op) : Slot Unit := do
  let s ← get
  let k := s.kern s.issue.kid
  if !i.fieldsOk s.issue.slot (hdrNlit (bundleHeader s.issue.bundle)) || !k.limitsOk i
      || (o.sh && !shadowArranged s.issue) || occupied k s.issue.slot then illegal

/-- A binary64 form occupies its V slot in the next cycle too, whether or not its guard holds (07 R173). -/
def occupy (i : Instr) : Slot Unit := do
  let s ← get
  if isBinary64 i then
    modCur fun k => { k with ctl :=
      if s.issue.slot = 3 then { k.ctl with occ0 := some (k.cyc + 1) } else { k.ctl with occ1 := some (k.cyc + 1) } }

/-- Checks 3 and 4 of R64: whether the guard is satisfied; a tagged guard traps POISON-BRANCH (R50). -/
def guardHolds (o : Op) : Slot Bool := do
  if o.pred = 0 then return !o.pinv
  let p ← readPred o.pred.toNat
  if p.tag then trapWord 0x10 p.org
  return p.v != o.pinv

/-- The effects of a slot operation with its checks in the order of R64; a shadow form has none of its own (05 R113). -/
def slotBody (i : Instr) (o : Op) (body : Slot Unit) : Slot Unit := do
  checkFields i o
  occupy i
  if o.sh then return
  if ← guardHolds o then
    let s ← get
    if writesLent (s.kern s.issue.kid) i s.issue.slot o then
      body
      trapWord 0x06 0
    else body

/-- Run a slot operation in the slot of the bundle in mid-issue. Without a bundle in mid-issue there is no slot to run
it in, and nothing happens. -/
def State.slotOp (s : State) (i : Instr) (o : Op) (body : Slot Unit) : State :=
  if s.issue.active then s.runSlot (slotBody i o body) else s

end Sys2Proof.Machine
end

