-- ==== Sys2Proof/Machine/Flags.lean ====
section
/-! DEFINITION. Floating-point operands and results of the slots, and the flag and condition computations: integer and
floating-point conditions, classes, predicate functions (04 R84-R88, R92; 05 R119-R125). -/

namespace Sys2Proof.Machine

/-- binary32 or binary64 by the D bit. -/
def fmtOf (d : Bool) : Fmt := if d then .f64 else .f32

/-- A scalar as a floating-point operand (05 R121): poison when a tag it spans is set, with the origin that its encoding carries
(04 R86, R89), or with bits 14:0 where the encoding is no poison; else its encoding's value. -/
def fpOperand (f : Fmt) (x : SVal) : FVal :=
  match x.tagged, decodeF f x.v.toNat with
  | true, .poison o => .poison o
  | true, _ => .poison x.origin
  | false, v => v

/-- A rounded result in a scalar register (R87, R121): a poison result sets the tags it spans. -/
def fpResult (f : Fmt) (r : RVal) : SVal :=
  ⟨wordOf (r.toBits f), r.isPoison, r.isPoison && f.w == 64⟩

/-- A rounded result in a lane; in an integer lane of 64 bits the origin stands in each element (07 R170). -/
def fpLane (f : Fmt) (r : RVal) : Lane :=
  match r with
  | .bits n => (n, false)
  | .poison o => if f.isFloat then (poisonBits f o, true) else taggedLane (f.w == 64) o

/-- A lane as a floating-point operand. -/
def laneVal (f : Fmt) (w64 : Bool) (x : VOp) (i : Nat) : FVal :=
  match x.org? w64 i with
  | some o => .poison o
  | none => decodeF f (x.lane w64 i)

/-- A value rounded into the operand's own format without a mode: exact, for results that are operands (R92). -/
def exact (f : Fmt) (x : FVal) : Arith RVal := roundTo f x 0 false

/-- The integer conditions of R119 on values of w bits. -/
def intCond (c w a b : Nat) : Bool :=
  let x := signExt w a
  let y := signExt w b
  match c with
  | 0 => a == b
  | 1 => a != b
  | 2 => decide (x < y)
  | 3 => decide (x ≤ y)
  | 4 => decide (y < x)
  | 5 => decide (y ≤ x)
  | 6 => decide (a < b)
  | 7 => decide (a ≤ b)
  | 8 => decide (b < a)
  | 9 => decide (b ≤ a)
  | 10 => a &&& b != 0
  | _ => a &&& b == 0

/-- The functions of PLOG and MLOG (R120). -/
def logicFn (f : Nat) (x y : Bool) : Bool :=
  match f with
  | 0 => x && y
  | 1 => x || y
  | 2 => x != y
  | 3 => x && !y
  | 4 => x || !y
  | 5 => !(x && y)
  | 6 => !(x || y)
  | 7 => x == y
  | 8 => !x
  | _ => x

/-- The one-hot class of R123; `bits` is the encoding. -/
def fpClass (f : Fmt) (v : FVal) (bits : Nat) : Nat :=
  match v with
  | .inf n => if n then 1 else 128
  | .poison _ => 256
  | .foreign => 512
  | .fin x =>
    let sub := bits / 2 ^ f.m % 2 ^ f.e == 0
    if x.m = 0 then (if x.neg then 8 else 16)
    else if x.neg then (if sub then 4 else 2) else (if sub then 32 else 64)

/-- The sign of b on a's encoding (R123). -/
def copySign (f : Fmt) (a b : Nat) : Nat := a % 2 ^ (f.w - 1) + b / 2 ^ (f.w - 1) % 2 * 2 ^ (f.w - 1)

/-- FSGN and VSGN: the merged poison first, a foreign NaN through FOREIGN, then the sign (R123). -/
def signOp (f : Fmt) (x y : FVal) (a b : Nat) : Arith RVal := do
  match ← gather [x, y] with
  | some o => return .poison o
  | none => return .bits (copySign f a b)

/-- FCMP's and VCMP's outcome: the condition, or the merged origin of poison operands (R123, 07 R179). -/
def compareOp (c : Nat) (x y : FVal) : Arith (Bool × Option Origin) := do
  match ← gather [x, y] with
  | some o => return (false, some o)
  | none => return (fpCond c x y, none)

/-- The poison types of R125: .w32, .w64, .f32, .f64. -/
def poisonOrigin (ty : Nat) (bits : Nat) (tagged : Bool) : Option Origin :=
  if tagged then some (BitVec.ofNat 15 bits)
  else
    match ty with
    | 2 => (match decodeF .f32 bits with | .poison o => some o | _ => none)
    | 3 => (match decodeF .f64 bits with | .poison o => some o | _ => none)
    | _ => none

/-- The conversions of FCVT (R124): target, source. -/
def fcvtPair (cv : Nat) : Fmt × Fmt :=
  let i64 := Fmt.int 7 64 true
  let n64 := Fmt.int 10 64 false
  let i32 := Fmt.int 6 32 true
  match cv with
  | 0 => (.f32, .f64)
  | 1 => (.f64, .f32)
  | 2 => (.f32, i64)
  | 3 => (.f64, i64)
  | 4 => (.f32, n64)
  | 5 => (.f64, n64)
  | 6 => (i64, .f32)
  | 7 => (i64, .f64)
  | 8 => (n64, .f32)
  | 9 => (n64, .f64)
  | 10 => (i32, .f32)
  | 11 => (i32, .f64)
  | 12 => (.f16, .f32)
  | 13 => (.f32, .f16)
  | 14 => (.bf16, .f32)
  | _ => (.f32, .bf16)

end Sys2Proof.Machine
end

