-- ==== Sys2Proof/Machine/Scalar.lean ====
section
/-! DEFINITION. The integer, bit-field, select, compare and predicate operations of the scalar slots (05 R115-R120), and
the scalar poison and check operations (R125-R128). -/

namespace Sys2Proof.Machine

/-- The width in bits. -/
def opWidth (o : Op) : Nat := if o.w then 64 else 32

/-- An integer result: Tagged of the merged origins where a source is tagged, else the value modulo 2^w (R115). -/
def intResult (o : Op) (srcs : List SVal) (v : Nat) : SVal :=
  match mergePoison (srcs.map SVal.org?) with
  | some g => .poison o.w g
  | none => .plain (wordOf (v % 2 ^ (opWidth o)))

/-- A two-source integer operation: f of the width and the operands. -/
def intTwo (o : Op) (lat : Nat) (f : Nat → Nat → Nat → Nat) : Slot Unit := do
  let a ← readWidth o.w o.a
  let b ← readWidth o.w o.b
  writeScalar o lat (intResult o [a, b] (f (opWidth o) a.v.toNat b.v.toNat)) 0

/-- A one-source integer operation. -/
def intOne (o : Op) (f : Nat → Nat → Nat) : Slot Unit := do
  let a ← readWidth o.w o.a
  writeScalar o 1 (intResult o [a] (f (opWidth o) a.v.toNat)) 0

/-- An integer as a w-bit pattern. -/
def patternOf (w : Nat) (x : Int) : Nat := (x % 2 ^ w).toNat

/-- a - b modulo 2^w. -/
def subN (w a b : Nat) : Nat := a + (2 ^ w - b)
/-- The high half of the signed product. -/
def mulhN (w a b : Nat) : Nat := patternOf w (signExt w a * signExt w b / 2 ^ w)
/-- The signed quotient, truncated; all ones for b = 0 (R116). -/
def divN (w a b : Nat) : Nat :=
  if b = 0 then 2 ^ w - 1 else patternOf w (Int.tdiv (signExt w a) (signExt w b))
/-- The natural quotient; all ones for b = 0. -/
def divnN (w a b : Nat) : Nat := if b = 0 then 2 ^ w - 1 else a / b
/-- The signed remainder with the sign of a; a for b = 0. -/
def remN (w a b : Nat) : Nat := if b = 0 then a else patternOf w (Int.tmod (signExt w a) (signExt w b))
/-- The natural remainder; a for b = 0. -/
def remnN (a b : Nat) : Nat := if b = 0 then a else a % b
/-- a AND NOT b. -/
def andnN (w a b : Nat) : Nat := a &&& (2 ^ w - 1 - b)
/-- Arithmetic shift right. -/
def sarN (w a b : Nat) : Nat := patternOf w (signExt w a / 2 ^ (b % w))
/-- Rotate toward the most significant bit. -/
def rotN (w a b : Nat) : Nat := a * 2 ^ (b % w) % 2 ^ w + a / 2 ^ (w - b % w)
/-- Signed minimum. -/
def minS (w a b : Nat) : Nat := if signExt w a ≤ signExt w b then a else b
/-- Signed maximum. -/
def maxS (w a b : Nat) : Nat := if signExt w a ≤ signExt w b then b else a
/-- Leading zero bits within w. -/
def clzN (w a : Nat) : Nat := w - bitLen a

/-- ADD (R116). -/
def execAdd (o : Op) (s : State) : Out := .next (s.slotOp (.add o) o (intTwo o 1 fun _ a b => a + b))
/-- SUB (R116). -/
def execSub (o : Op) (s : State) : Out := .next (s.slotOp (.sub o) o (intTwo o 1 subN))
/-- MUL (R116). -/
def execMul (o : Op) (s : State) : Out := .next (s.slotOp (.mul o) o (intTwo o 3 fun _ a b => a * b))
/-- MULH (R116). -/
def execMulh (o : Op) (s : State) : Out := .next (s.slotOp (.mulh o) o (intTwo o 3 mulhN))
/-- MULHN (R116). -/
def execMulhn (o : Op) (s : State) : Out := .next (s.slotOp (.mulhn o) o (intTwo o 3 fun w a b => a * b / 2 ^ w))
/-- DIV (R116). -/
def execDiv (o : Op) (s : State) : Out := .next (s.slotOp (.div o) o (intTwo o 20 divN))
/-- DIVN (R116). -/
def execDivn (o : Op) (s : State) : Out := .next (s.slotOp (.divn o) o (intTwo o 20 divnN))
/-- REM (R116). -/
def execRem (o : Op) (s : State) : Out := .next (s.slotOp (.rem o) o (intTwo o 20 remN))
/-- REMN (R116). -/
def execRemn (o : Op) (s : State) : Out := .next (s.slotOp (.remn o) o (intTwo o 20 fun _ a b => remnN a b))
/-- AND (R116). -/
def execAnd (o : Op) (s : State) : Out := .next (s.slotOp (.and o) o (intTwo o 1 fun _ a b => a &&& b))
/-- OR (R116). -/
def execOr (o : Op) (s : State) : Out := .next (s.slotOp (.or o) o (intTwo o 1 fun _ a b => a ||| b))
/-- XOR (R116). -/
def execXor (o : Op) (s : State) : Out := .next (s.slotOp (.xor o) o (intTwo o 1 fun _ a b => a ^^^ b))
/-- ANDN (R116). -/
def execAndn (o : Op) (s : State) : Out := .next (s.slotOp (.andn o) o (intTwo o 1 andnN))
/-- SHL (R116). -/
def execShl (o : Op) (s : State) : Out := .next (s.slotOp (.shl o) o (intTwo o 1 fun w a b => a * 2 ^ (b % w)))
/-- SHR (R116). -/
def execShr (o : Op) (s : State) : Out := .next (s.slotOp (.shr o) o (intTwo o 1 fun w a b => a / 2 ^ (b % w)))
/-- SAR (R116). -/
def execSar (o : Op) (s : State) : Out := .next (s.slotOp (.sar o) o (intTwo o 1 sarN))
/-- ROT (R116). -/
def execRot (o : Op) (s : State) : Out := .next (s.slotOp (.rot o) o (intTwo o 1 rotN))
/-- MIN (R116). -/
def execMin (o : Op) (s : State) : Out := .next (s.slotOp (.min o) o (intTwo o 1 minS))
/-- MAX (R116). -/
def execMax (o : Op) (s : State) : Out := .next (s.slotOp (.max o) o (intTwo o 1 maxS))
/-- MINN (R116). -/
def execMinn (o : Op) (s : State) : Out := .next (s.slotOp (.minn o) o (intTwo o 1 fun _ a b => Nat.min a b))
/-- MAXN (R116). -/
def execMaxn (o : Op) (s : State) : Out := .next (s.slotOp (.maxn o) o (intTwo o 1 fun _ a b => Nat.max a b))
/-- CLZ (R116). -/
def execClz (o : Op) (s : State) : Out := .next (s.slotOp (.clz o) o (intOne o clzN))
/-- POPC (R116). -/
def execPopc (o : Op) (s : State) : Out := .next (s.slotOp (.popc o) o (intOne o popcount))

/-- The length of a bit-field form: MOD bits 7:1 plus 1 (R117). -/
def fieldLen (o : Op) : Nat := o.m.toNat / 2 + 1

/-- a >> pos AND (2^len - 1); 0 for pos at or above w (R117). -/
def bextN (w len a pos : Nat) : Nat := if w ≤ pos then 0 else a / 2 ^ pos % 2 ^ len

/-- Bits pos to min(pos + len, w) - 1 of d replaced with the low bits of a (R117). -/
def binsN (w len d a pos : Nat) : Nat :=
  if w ≤ pos then d
  else
    let n := min (pos + len) w - pos
    d % 2 ^ pos + a % 2 ^ n * 2 ^ pos + d / 2 ^ (pos + n) * 2 ^ (pos + n)

/-- BEXT (R117). -/
def execBext (o : Op) (s : State) : Out :=
  .next (s.slotOp (.bext o) o (intTwo o 1 fun w a b => bextN w (fieldLen o) a (b % 64)))

/-- BINS (R117). -/
def execBins (o : Op) (s : State) : Out :=
  .next (s.slotOp (.bins o) o (do
    let a ← readWidth o.w o.a
    let b ← readWidth o.w o.b
    let d ← readDest o o.w
    writeScalar o 1 (intResult o [a, b, d] (binsN (opWidth o) (fieldLen o) d.v.toNat a.v.toNat (b.v.toNat % 64))) 0))

/-- SEXT (R117). -/
def execSext (o : Op) (s : State) : Out :=
  .next (s.slotOp (.sext o) o (intOne o fun w a => patternOf w (signExt (fieldLen o) a)))

/-- SEL (R118). -/
def execSel (o : Op) (s : State) : Out :=
  .next (s.slotOp (.sel o) o (do
    let p ← readPred o.m41
    let a ← readWidth o.w o.a
    let b ← readWidth o.w o.b
    let r := if p.tag then SVal.poison o.w ((mergePoison [some p.org, a.org?, b.org?]).getD 0)
      else if p.v then a else b
    writeScalar o 1 r 0))

/-- MOV (R115, R116): bits and tags unchanged. -/
def execMov (o : Op) (s : State) : Out :=
  .next (s.slotOp (.mov o) o (do
    let a ← readWidth o.w o.a
    writeScalar o 1 a 0))

/-- CMP (R119). -/
def execCmp (o : Op) (s : State) : Out :=
  .next (s.slotOp (.cmp o) o (do
    let a ← readWidth o.w o.a
    let b ← readWidth o.w o.b
    match mergePoison [a.org?, b.org?] with
    | some g => writePred o 1 false true g 0
    | none => writePred o 1 (intCond o.m41 (opWidth o) a.v.toNat b.v.toNat) false 0 0))

/-- The stage predicates as PLOG reads them: those of the innermost active loop (06 R147, R148). -/
def Kern.stage (k : Kern) : BitVec 8 :=
  if k.ctl.lc1.active then k.ctl.lc1.k else if k.ctl.lc0.active then k.ctl.lc0.k else 0

/-- A predicate field of PLOG: p0-p15 or k0-k7 (R120). -/
def readPredField (x : BitVec 8) : Slot PredReg := do
  if x.toNat < 16 then readPred x.toNat
  else
    let b := (← curKern).stage.getLsbD (x.toNat - 16)
    return ⟨b, false, 0, b⟩

/-- PLOG (R120). -/
def execPlog (o : Op) (s : State) : Out :=
  .next (s.slotOp (.plog o) o (do
    let x ← readPredField o.a
    let y ← (if o.m41 < 8 then readPredField o.b else return x)
    match mergePoison [if x.tag then some x.org else none, if y.tag then some y.org else none] with
    | some g => writePred o 1 false true g 0
    | none => writePred o 1 (logicFn o.m41 x.v y.v) false 0 0))

/-! ## Poison and check operations (R125-R128) -/

/-- The type in MOD bits 1:0. -/
def poisonType (o : Op) : Nat := (o.m.extractLsb' 0 2).toNat
/-- The type spans 64 bits. -/
def poisonWide (o : Op) : Bool := o.m.getLsbD 0

/-- The origin of a scalar that is poison under the type (R125). -/
def scalarPoison (o : Op) (x : SVal) : Option Origin :=
  let y := x.cut (poisonWide o)
  poisonOrigin (poisonType o) y.v.toNat y.tagged

/-- PTEST (R125). -/
def execPtest (o : Op) (s : State) : Out :=
  .next (s.slotOp (.ptest o) o (do
    let a ← readScalar o.a
    writePred o 1 (scalarPoison o a).isSome false 0 0))

/-- PORIG (R125). -/
def execPorig (o : Op) (s : State) : Out :=
  .next (s.slotOp (.porig o) o (do
    let a ← readScalar o.a
    let v := match scalarPoison o a with | some g => g.setWidth 64 | none => BitVec.allOnes 64
    writeScalar o 1 (.plain v) 0))

/-- PCHK (R126). -/
def execPchk (o : Op) (s : State) : Out :=
  .next (s.slotOp (.pchk o) o (do
    let a ← readScalar o.a
    match scalarPoison o a with
    | some g => trapWith 0x13 a.v g
    | none => return))

/-- Add to the context's sanitise count; with resilience on the segment keeps the addition (14 R363). -/
def sanitise (n : Nat) : Slot Unit := do
  let k ← curKern
  match k.seg with
  | some _ => modCur fun y => { y with seg := y.seg.map fun g => { g with sanitise := g.sanitise + n } }
  | none => modify fun s => s.modCtx k.ctx fun c => { c with san := satCount c.san n }

/-- PSAN (R127). -/
def execPsan (o : Op) (s : State) : Out :=
  .next (s.slotOp (.psan o) o (do
    let a ← readScalar o.a
    let b ← readScalar o.b
    match scalarPoison o a with
    | some _ =>
      sanitise 1
      writeScalar o 1 ((SVal.plain b.v).cut (poisonWide o)) 0
    | none => writeScalar o 1 (a.cut (poisonWide o)) 0))

/-- CHKEQ (R128); with resilience on a difference is a detected pipeline error (14 R373). -/
def execChkeq (o : Op) (s : State) : Out :=
  .next (s.slotOp (.chkeq o) o (do
    let a ← readWidth o.w o.a
    let b ← readWidth o.w o.b
    if a ≠ b then
      if (← curKern).resil then throw .pipe else trapWith 0x14 (a.v ^^^ b.v) 0))

end Sys2Proof.Machine
end

