-- ==== Sys2Proof/Machine/ScalarFp.lean ====
section
/-! DEFINITION. The floating-point operations of the scalar slots (05 R121-R124). -/

namespace Sys2Proof.Machine

/-- A rounding operation: the exact result of f on the operands, rounded once by RM and OVF (R122). -/
def fpRound (o : Op) (lat : Nat) (srcs : List SVal) (f : List FVal → Arith FVal) : Slot Unit := do
  let fm := fmtOf o.w
  let (r, fl) ← runArith (packNat 64 (srcs.map (·.v.toNat))) 0 (do roundTo fm (← f (srcs.map (fpOperand fm))) o.rm o.sat)
  writeScalar o lat (fpResult fm r) fl

/-- A two-source rounding operation. -/
def fpTwo (o : Op) (lat : Nat) (f : FVal → FVal → Arith FVal) : Slot Unit := do
  let a ← readWidth o.w o.a
  let b ← readWidth o.w o.b
  fpRound o lat [a, b] fun l => match l with | [x, y] => f x y | _ => pure .foreign

/-- A fused operation, which reads its destination (R122). -/
def fpThree (o : Op) (lat : Nat) (f : FVal → FVal → FVal → Arith FVal) : Slot Unit := do
  let a ← readWidth o.w o.a
  let b ← readWidth o.w o.b
  let d ← readDest o o.w
  fpRound o lat [a, b, d] fun l => match l with | [x, y, z] => f x y z | _ => pure .foreign

/-- The latency of FDIV and FSQRT: 14 or 24 (R122). -/
def divLat (o : Op) : Nat := if o.w then 24 else 14

/-- FADD (R122). -/
def execFadd (o : Op) (s : State) : Out := .next (s.slotOp (.fadd o) o (fpTwo o 4 (fpAdd o.rm)))
/-- FSUB (R122). -/
def execFsub (o : Op) (s : State) : Out :=
  .next (s.slotOp (.fsub o) o (fpTwo o 4 fun a b => fpAdd o.rm a b.negate))
/-- FMUL (R122). -/
def execFmul (o : Op) (s : State) : Out := .next (s.slotOp (.fmul o) o (fpTwo o 4 fpMul))
/-- FFMA (R122). -/
def execFfma (o : Op) (s : State) : Out := .next (s.slotOp (.ffma o) o (fpThree o 4 (fpFma o.rm)))
/-- FFMS (R122). -/
def execFfms (o : Op) (s : State) : Out :=
  .next (s.slotOp (.ffms o) o (fpThree o 4 fun a b d => fpFma o.rm a b d.negate))
/-- FDIV (R122). -/
def execFdiv (o : Op) (s : State) : Out := .next (s.slotOp (.fdiv o) o (fpTwo o (divLat o) fpDiv))
/-- FSQRT (R122). -/
def execFsqrt (o : Op) (s : State) : Out :=
  .next (s.slotOp (.fsqrt o) o (do
    let a ← readWidth o.w o.a
    fpRound o (divLat o) [a] fun l => match l with | [x] => fpSqrt x | _ => pure .foreign))

/-- A non-rounding form with a floating-point result (R123). -/
def fpMisc (o : Op) (f : Fmt → SVal → SVal → Arith RVal) : Slot Unit := do
  let a ← readWidth o.w o.a
  let b ← readWidth o.w o.b
  let fm := fmtOf o.w
  let (r, _) ← runArith (a.v.toNat + 2 ^ 64 * b.v.toNat) 0 (f fm a b)
  writeScalar o 2 (fpResult fm r) 0

/-- FMIN (R123). -/
def execFmin (o : Op) (s : State) : Out :=
  .next (s.slotOp (.fmin o) o (fpMisc o fun f a b => do exact f (← fpMinMax false (fpOperand f a) (fpOperand f b))))
/-- FMAX (R123). -/
def execFmax (o : Op) (s : State) : Out :=
  .next (s.slotOp (.fmax o) o (fpMisc o fun f a b => do exact f (← fpMinMax true (fpOperand f a) (fpOperand f b))))
/-- FSGN (R123). -/
def execFsgn (o : Op) (s : State) : Out :=
  .next (s.slotOp (.fsgn o) o (fpMisc o fun f a b => signOp f (fpOperand f a) (fpOperand f b) a.v.toNat b.v.toNat))

/-- FCMP (R123). -/
def execFcmp (o : Op) (s : State) : Out :=
  .next (s.slotOp (.fcmp o) o (do
    let a ← readWidth o.w o.a
    let b ← readWidth o.w o.b
    let fm := fmtOf o.w
    let ((v, g), _) ← runArith (a.v.toNat + 2 ^ 64 * b.v.toNat) 0 (compareOp o.m75 (fpOperand fm a) (fpOperand fm b))
    match g with
    | some g => writePred o 2 false true g 0
    | none => writePred o 2 v false 0 0))

/-- FCLASS (R123). -/
def execFclass (o : Op) (s : State) : Out :=
  .next (s.slotOp (.fclass o) o (do
    let a ← readWidth o.w o.a
    let fm := fmtOf o.w
    writeScalar o 2 (.plain (wordOf (fpClass fm (fpOperand fm a) a.v.toNat))) 0))

/-- The rounding of FCVT (R124): RoundTo, where a finite value beyond an integer's range is poison under INF whatever the mode, as the
rule says of FCVT; R82's modes hold elsewhere (log 111: DEDUCED). Nothing has been raised before it. -/
def roundCvt (t : Fmt) (x : FVal) (mode : Nat) (sat : Bool) : Arith RVal := do
  let r ← roundTo t x mode sat
  if t.isInt && !sat && !r.isPoison && (← get).flags.getLsbD 2 then
    return .poison (← newOrigin kOVERFLOW)
  return r

/-- FCVT (R124). -/
def execFcvt (o : Op) (s : State) : Out :=
  .next (s.slotOp (.fcvt o) o (do
    let cv := 2 * o.m75 + (if o.w then 1 else 0)
    let (t, f) := fcvtPair cv
    let a ← readWidth (f.w == 64) o.a
    let (r, fl) ← runArith a.v.toNat 0 (roundCvt t (fpOperand f a) o.rm o.sat)
    writeScalar o 3 (fpResult t r) fl))

end Sys2Proof.Machine
end

