-- ==== Sys2Proof/Machine/Buffers.lean ====
section
/-! DEFINITION. The typed buffers (08 R197-R205, 04 R93), owner regions (R211-R214), tensor entries (R206-R209), and the
segment's log of what it overwrites (14 R375). Addresses are kernel-relative bytes. -/

namespace Sys2Proof.Machine

/-! ## The buffers of a kernel -/

/-- The code of a buffer (R202, R206). -/
def BufId.code (b : BufId) : Nat :=
  match b with | .ab => 0 | .ws => 1 | .xs => 2 | .ns => 3 | .dm => 4

/-- The buffer of a code. -/
def bufOfCode (n : Nat) : BufId :=
  match n with | 0 => .ab | 1 => .ws | 2 => .xs | 3 => .ns | _ => .dm

/-- A kernel's buffer; device memory has none of it. -/
def Kern.buf (k : Kern) (b : BufId) : Buf :=
  match b with | .ab => k.ab | .ws => k.ws | .xs => k.xs | .ns => k.ns | .dm => .zero

/-- A kernel with a buffer changed. -/
def Kern.setBuf (k : Kern) (b : BufId) (x : Buf) : Kern :=
  match b with
  | .ab => { k with ab := x }
  | .ws => { k with ws := x }
  | .xs => { k with xs := x }
  | .ns => { k with ns := x }
  | .dm => k

/-- The bytes a buffer's whole address range holds (R197). -/
def bufSize (b : BufId) : Nat :=
  match b with | .ab => 512 * 1024 | .ws => 1024 * 1024 | .xs => 2048 * 1024 | .ns => 256 * 1024 | .dm => 2 ^ 49

/-- The bytes of a buffer allotted to a kernel (R201). -/
def Kern.limit (k : Kern) (b : BufId) : Nat :=
  match b with
  | .ab => k.res.ab * 1024
  | .ws => k.res.ws * 2048
  | .xs => k.res.xs * 131072
  | .ns => k.res.ns * 1024
  | .dm => 2 ^ 49

/-- The bytes of an owner region (R197). -/
def regionBytes (b : BufId) : Nat :=
  match b with | .ab => 4096 | .ws => 2048 | .xs => 8192 | .ns => 4096 | .dm => 2 ^ 49

/-- The bytes of a power unit (R202). -/
def unitBytes (b : BufId) : Nat :=
  match b with | .ab => 65536 | .ws => 65536 | .xs => 131072 | .ns => 65536 | .dm => 2 ^ 49

/-- The key of a region in `Kern.own`. -/
def regionKey (b : BufId) (addr : Nat) : Nat := b.code * 1024 + addr / regionBytes b

/-- The owner of the region of a byte: 0 CORE, else the engine plus 1 (R211). -/
def Kern.owner (k : Kern) (b : BufId) (addr : Nat) : Nat := Tab.get 0 k.own (regionKey b addr)

/-- The region keys that bytes lo to hi meet; beyond its end a buffer has none. -/
def regionKeys (b : BufId) (lo hi : Nat) : List Nat :=
  let top := min hi (bufSize b - 1)
  if top < lo then [] else (List.range (top / regionBytes b - lo / regionBytes b + 1)).map (· + regionKey b lo)

/-- The kernel-relative address at which a region key's region begins. -/
def regionAddr (key : Nat) : Nat := key % 1024 * regionBytes (bufOfCode (key / 1024))

/-- A unit's state (R203). -/
def Kern.unit (k : Kern) (b : BufId) (u : Nat) : UnitSt := Tab.get .awake k.units (b.code * 16 + u)

/-- The first byte from lo to hi that lies in a unit that is not AWAKE (R204). -/
def Kern.coldByte (k : Kern) (b : BufId) (lo hi : Nat) : Option Nat :=
  if b = .dm ∨ hi < lo then none
  else ((List.range (hi / unitBytes b - lo / unitBytes b + 1)).find? fun i => k.unit b (lo / unitBytes b + i) != .awake).map
    fun i => if i = 0 then lo else (lo / unitBytes b + i) * unitBytes b

/-- The first byte from lo to hi in a region that an engine owns, other than engine `me` (plus 1; 0 for the core). -/
def Kern.ownedByte (k : Kern) (b : BufId) (lo hi me : Nat) : Option Nat :=
  if b = .dm ∨ hi < lo then none
  else ((List.range (hi / regionBytes b - lo / regionBytes b + 1)).find? fun i =>
      let w := k.owner b ((lo / regionBytes b + i) * regionBytes b)
      w != 0 && w != me).map
    fun i => if i = 0 then lo else (lo / regionBytes b + i) * regionBytes b

/-- TVAL of COLD-BANK: a byte address, a granule number or an XS slot number (R204). -/
def coldTval (b : BufId) (addr : Nat) : Nat :=
  match b with | .ws => addr / 2048 | .xs => addr / 64 | _ => addr

/-! ## Reading and writing bytes -/

/-- The mark of the sector that holds a byte. -/
def Buf.markAt (x : Buf) (addr : Nat) : Option Origin := Tab.get? x.marks (addr / 32)

/-- The merged origin of the marked sectors that bytes touch (R93). -/
def Buf.marksOver (x : Buf) (addr n : Nat) : Option Origin :=
  mergePoison ((sectorsOf addr n).map fun s => Tab.get? x.marks s)

/-- Write a marked sector; the checksum column of its granule is recomputed (10 R256). -/
def Buf.mark (x : Buf) (sec : Nat) (o : Origin) : Buf :=
  ⟨x.mem.writeAll (32 * sec) (markBytes o), Tab.set x.marks sec o, x.ue.filter (fun w => w / 4 != sec),
   x.ce.filter (fun w => w / 4 != sec), x.upset.filter (fun g => g != sec / 64)⟩

/-- The bytes of runs, with their addresses. -/
def pairsOf (runs : List (Nat × List Byte)) : List (Nat × Byte) :=
  runs.flatMap fun r => (List.range r.2.length).zip r.2 |>.map fun p => (r.1 + p.1, p.2)

/-- The list without repeats, first occurrences kept. -/
def dedup : List Nat → List Nat
  | [] => []
  | x :: t => let r := dedup t
    if r.contains x then r else x :: r

/-- Writes that take effect together: a sector written whole loses its mark; part of a marked sector stays as the
marked sector is (R93); a whole 8-byte word written is good again, in a marked sector too (R200); the checksum column of the granule is recomputed
(10 R256). -/
def Buf.write (x : Buf) (runs : List (Nat × List Byte)) : Buf :=
  let ps := pairsOf runs
  (dedup (ps.map fun p => p.1 / 32)).foldl (fun x sec =>
    let mine := ps.filter fun p => p.1 / 32 == sec
    let has := fun a => mine.any fun p => p.1 == a
    let put := fun (m : Memory) => mine.foldl (fun m p => m.write p.1 p.2) m
    let upset := x.upset.filter fun g => g != sec / 64
    if (List.range 32).all fun i => has (32 * sec + i) then
      ⟨put x.mem, x.marks.erase sec, x.ue.filter fun w => w / 4 != sec, x.ce.filter fun w => w / 4 != sec, upset⟩
    else
      let stays := fun w => !(w / 4 == sec && (List.range 8).all fun i => has (8 * w + i))
      ⟨if (Tab.get? x.marks sec).isSome then x.mem else put x.mem, x.marks, x.ue.filter stays, x.ce.filter stays, upset⟩) x

/-- A byte of which only some bits are written. -/
def mergeBits (old new mask : Byte) : Byte := (new &&& mask) ||| (old &&& ~~~mask)

/-- Writes of some bits of bytes (10 R273), each an address, a value and the written bits: they write no word and no sector whole. -/
def Buf.writeBits (x : Buf) (l : List (Nat × Byte × Byte)) : Buf :=
  l.foldl (fun x b =>
    { x with
      mem := if (Tab.get? x.marks (b.1 / 32)).isSome then x.mem else x.mem.write b.1 (mergeBits (x.mem.byte b.1) b.2.1 b.2.2)
      upset := x.upset.filter fun g => g != b.1 / 2048 }) x

/-- A range of n bytes touches the 8-byte word w. -/
def rangeTouches (r : Nat × Nat) (w : Nat) : Bool := decide (8 * w < r.1 + r.2) && decide (r.1 < 8 * w + 8)

/-- The words of a buffer's ranges whose error its code corrects are counted and good again (R200). -/
def State.correctBuf (s : State) (k : Nat) (b : BufId) (l : List (Nat × Nat)) : State :=
  let hit := ((s.kern k).buf b).ce.filter fun w => l.any fun r => rangeTouches r w
  if hit.isEmpty then s
  else
    let s := s.modKern k fun y => y.setBuf b { y.buf b with ce := (y.buf b).ce.filter fun w => !hit.contains w }
    { s with hub := s.hub.countUp 0 hit.length }

/-- First consumption of a buffer's uncorrectable words by a read of ranges, each an address and a count of bytes (R200): each
sector that holds one is marked with the reader's origin, one index for the whole access. -/
def State.consumeRanges (s : State) (k : Nat) (t : Taker) (b : BufId) (l : List (Nat × Nat)) : State :=
  let s := s.correctBuf k b l
  let x := (s.kern k).buf b
  if x.ue.isEmpty then s
  else
    let bad := fun (sec : Nat) => x.ue.any fun w => w / 4 == sec
    match l.find? fun r => (sectorsOf r.1 r.2).any bad with
    | none => s
    | some first =>
      let secs := dedup ((l.flatMap fun r => sectorsOf r.1 r.2).filter bad)
      let (o, s) := s.takeOrigin t kMEMUE (first.1 + b.code * 2 ^ 49)
      s.modKern k fun y => y.setBuf b (secs.foldl (fun x sec => x.mark sec o) (y.buf b))

/-- The same for one range. -/
def State.consumeBuf (s : State) (k : Nat) (t : Taker) (b : BufId) (addr n : Nat) : State := s.consumeRanges k t b [(addr, n)]

/-- A write that covers part of a word with an error is its first consumption (R200); of the bytes at `part` only some bits are
written. -/
def State.consumePartial (s : State) (k : Nat) (t : Taker) (b : BufId) (runs : List (Nat × List Byte)) (part : List Nat := []) :
    State :=
  let x := (s.kern k).buf b
  if x.ue.isEmpty && x.ce.isEmpty then s
  else
    let ps := pairsOf runs
    let hit := (x.ue ++ x.ce).filter fun w =>
      let n := ((List.range 8).filter fun i => ps.any fun p => p.1 == 8 * w + i).length
      (decide (0 < n) && decide (n < 8)) || part.any fun a => a / 8 == w
    if hit.isEmpty then s else s.consumeRanges k t b (hit.map fun w => (8 * w, 8))

/-- Apply writes of a kernel's buffers that take effect together: first the bytes, then the marks, each marked sector
with the merge of the origins that reach it (R93, 07 R192). Of some bytes of AB only the bits in `bits` are written (10 R273). -/
def State.writeBufs (s : State) (k : Nat) (t : Taker) (ws : List BWrite) (bits : List (Nat × Byte × Byte) := []) : State :=
  [BufId.ab, .ws, .xs, .ns].foldl (fun s b =>
    let mine := ws.filter fun w => w.buf == b
    let bits := if b = .ab then bits else []
    if mine.isEmpty && bits.isEmpty then s
    else
      let runs := (mine.filter fun w => w.mark.isNone).map fun w => (w.addr, w.bytes)
      let marks := mine.filterMap fun w => w.mark.map fun o => (w.addr / 32, o)
      let s := s.consumePartial k t b runs (bits.map (·.1))
      s.modKern k fun y =>
        let x := ((y.buf b).write runs).writeBits bits
        y.setBuf b ((dedup (marks.map (·.1))).foldl (fun x sec =>
          x.mark sec ((mergePoison ((marks.filter fun m => m.1 == sec).map fun m => some m.2)).getD 0)) x)) s

/-! ## Tensor entries (R206, R207) -/

/-- The fields of a tensor entry. -/
structure Ent where
  valid : Bool
  ndm1 : Nat
  layout : Nat
  fmt : Nat
  bufCode : Nat
  base : Nat
  size : List Nat
  stride : List Int
  scale : Nat
  aux : List Nat
  /-- A reserved field is set. -/
  resv : Bool
  deriving DecidableEq, Repr, Inhabited

/-- Word w of an entry. -/
def entWord (e : BitVec 512) (w : Nat) : Nat := (e.extractLsb' (64 * w) 64).toNat

/-- An entry read field by field; sizes are SIZEn + 1. -/
def entOf (e : BitVec 512) : Ent :=
  let w := entWord e
  { valid := bitsOf (w 0) 63 63 == 1
    ndm1 := bitsOf (w 0) 60 59
    layout := bitsOf (w 0) 58 56
    fmt := bitsOf (w 0) 55 52
    bufCode := bitsOf (w 0) 51 49
    base := bitsOf (w 0) 48 0
    size := (List.range 4).map fun n => bitsOf (w 1) (16 * n + 15) (16 * n) + 1
    stride := (List.range 4).map fun n => signExt 32 (bitsOf (w (2 + n / 2)) (32 * (n % 2) + 31) (32 * (n % 2)))
    scale := bitsOf (w 4) 48 0
    aux := (List.range 3).map fun n => bitsOf (w 5) (8 * n + 7) (8 * n)
    resv := bitsOf (w 0) 62 61 != 0 || bitsOf (w 4) 63 49 != 0 || bitsOf (w 5) 63 24 != 0 || bitsOf (w 6) 63 4 != 0
      || w 7 != 0 }

/-- The buffer of an entry. -/
def Ent.buf (e : Ent) : BufId := bufOfCode e.bufCode
/-- SIZEn + 1. -/
def Ent.sz (e : Ent) (n : Nat) : Nat := e.size.getD n 1
/-- STRIDEn. -/
def Ent.str (e : Ent) (n : Nat) : Int := e.stride.getD n 0

/-- The fields break R206: TDEF refuses such an entry (R220). -/
def Ent.malformed (e : Ent) : Bool :=
  e.resv || decide (4 < e.layout) || decide (4 < e.bufCode)
    || (List.range 4).any (fun n => decide (e.ndm1 < n) && (e.sz n != 1 || e.str n != 0))
    || decide (bufSize e.buf ≤ e.base) || decide (bufSize e.buf ≤ e.scale)

/-- The format descriptor registers of a kernel (R210). -/
def Kern.fmtDesc (k : Kern) (n : Nat) : BitVec 32 := Tab.get 0x0020_0000 k.fmts n

/-- The lowest and highest element offsets (R207). -/
def Ent.span (e : Ent) : Int × Int :=
  (List.range 4).foldl (fun (acc : Int × Int) n =>
    let x := ((e.sz n : Int) - 1) * e.str n
    (acc.1 + min 0 x, acc.2 + max 0 x)) (0, 0)

/-- Rows and K blocks of a scaled tensor (R207). -/
def Ent.rows (e : Ent) : Nat := e.sz 1 * e.sz 2 * e.sz 3
/-- K blocks per row. -/
def Ent.blocks (e : Ent) : Nat := ceilDiv (e.sz 0) 64

/-- The entry's own byte ranges: its elements, and its scales (R207). -/
def Ent.ranges (e : Ent) (f : Fmt) : List (Int × Int) :=
  let (lo, hi) := e.span
  let a := (8 * (e.base : Int) + lo * f.w) / 8
  let b := (8 * (e.base : Int) + hi * f.w + (f.w : Int) - 1) / 8
  (a, b) :: (if f.scaled then [((e.scale : Int), (e.scale : Int) + 2 * (e.rows * e.blocks : Nat) - 1)] else [])

/-- The entry tN of a kernel. -/
def Kern.entry (k : Kern) (n : Nat) : BitVec 512 := Tab.get 0 k.tdt n

/-- R209 for entry tN and its companions; one that stands in `seen`, the entries that lead to it, is under test. -/
def Kern.tensOk (k : Kern) : Nat → List Nat → Nat → Bool
  | 0, _, _ => false
  | fuel + 1, seen, n => seen.contains n || (
    let e := entOf (k.entry n)
    decide (n < k.res.tdt) && e.valid && !e.malformed
      && (match Fmt.ofDesc (k.fmtDesc e.fmt) with
        | none => false
        | some f =>
          (decide (f.w < 8) || e.base % (f.w / 8) == 0)
            && (e.buf != .ws || e.base % 2048 == 0) && (e.buf != .xs || e.base % 64 == 0)
            && (e.buf == .dm || (e.ranges f).all fun r => decide (0 ≤ r.1) && decide (r.2 < k.limit e.buf))
            && (decide (e.layout < 3) || (k.fmtDesc e.fmt == 0x0090_0000 && e.ndm1 == 0)))
      && (List.range 3).all fun j =>
        let a := e.aux.getD j 0xFF
        let need := match e.layout, j with | 1, 0 => true | 1, 1 => true | 2, 0 => true | _, _ => false
        let may := need || (e.layout == 3 && j == 0)
        if a = 0xFF then !need
        else may && (let c := entOf (k.entry a)
          c.bufCode == e.bufCode && (e.layout != 1 || c.layout == 4) && k.tensOk fuel (n :: seen) a))

/-- Entry tN passes R209: a chain of companions has at most 256 entries before one of them recurs. -/
def Kern.tensorOk (k : Kern) (n : Nat) : Bool := k.tensOk 257 [] n

/-- tN and its companions as an operation captures them; an entry that leads to itself is not followed again. -/
def Kern.captureFrom (k : Kern) : Nat → List Nat → Nat → List Tens
  | 0, _, _ => []
  | fuel + 1, seen, n =>
    let w := k.entry n
    let e := entOf w
    ⟨n, w, k.fmtDesc e.fmt⟩
      :: if seen.contains n then [] else (e.aux.filter (· != 0xFF)).flatMap (k.captureFrom fuel (n :: seen))

/-- tN and its companions as an operation captures them (R209). -/
def Kern.capture (k : Kern) (n : Nat) : List Tens := k.captureFrom 257 [] n

/-- The descriptors of tN and its companions that fail R75. -/
def Kern.badDescs (k : Kern) (n : Nat) : List Nat :=
  ((k.capture n).filter fun t => (Fmt.ofDesc t.fmt).isNone).map (·.fmt.toNat)

/-- What the general rules name as TVAL where tN may not be used: its index where the entry fails (R209), or a descriptor that fails
(04 R75); its index and the buffer's code where it lies in none of the buffers `bs` (R198). -/
def Kern.tensorVals (k : Kern) (n : Nat) (bs : List BufId) : List Nat :=
  if !k.tensorOk n then n :: k.badDescs n
  else
    let e := entOf (k.entry n)
    if bs.contains e.buf then [] else [n + e.bufCode * 2 ^ 8]

/-- One of the values that the manual's rules name as TVAL of such a trap: which, the manual leaves open (log 26: DESIGN CHOICE). -/
def tensorTval (l : List Nat) : Word := wordOf (l.getD (Config.tensorTval % l.length) 0)

/-- The format of a captured tensor. -/
def Tens.format (t : Tens) : Fmt := (Fmt.ofDesc t.fmt).getD .f32
/-- The fields of a captured tensor. -/
def Tens.fields (t : Tens) : Ent := entOf t.ent

/-- The buffer ranges that a captured tensor covers; none in device memory. -/
def Tens.spans (t : Tens) : List (BufId × Nat × Nat) :=
  let e := t.fields
  if e.buf = .dm then [] else ((e.ranges t.format).filter fun r => decide (0 ≤ r.2)).map fun r => (e.buf, r.1.toNat, r.2.toNat)

/-- The regions that captured tensors cover (R211). -/
def coveredKeys (ts : List Tens) : List Nat :=
  dedup (ts.flatMap fun t => t.spans.flatMap fun r => regionKeys r.1 r.2.1 r.2.2)

/-- The first byte of the covered units that is not AWAKE (R204). -/
def Kern.coldTensor (k : Kern) (ts : List Tens) : Option (BufId × Nat) :=
  (ts.flatMap Tens.spans).findSome? fun r => (k.coldByte r.1 r.2.1 r.2.2).map fun a => (r.1, a)

/-- The bit address of the element at element offset e (R207). -/
def Tens.bitAddr (t : Tens) (e : Int) : Nat := (8 * (t.fields.base : Int) + e * t.format.w).toNat

/-- The element offset of indices (i0, i1, i2, i3). -/
def Tens.offset (t : Tens) (i0 i1 i2 i3 : Nat) : Int :=
  let e := t.fields
  i0 * e.str 0 + i1 * e.str 1 + i2 * e.str 2 + i3 * e.str 3

/-- `w` bits from a bit address of a buffer. -/
def bitsAt (m : Memory) (bit w : Nat) : Nat :=
  let lo := bit / 8
  let hi := (bit + w - 1) / 8
  leNat (m.read lo (hi - lo + 1)) / 2 ^ (bit % 8) % 2 ^ w

/-- An element's bits, and the origin of a marked sector it lies in (R93). -/
def Buf.element (x : Buf) (bit w : Nat) : Nat × Option Origin :=
  let lo := bit / 8
  (bitsAt x.mem bit w, x.marksOver lo ((bit + w - 1) / 8 - lo + 1))

/-- The address of the scale of row i, K block j (R78). -/
def Tens.scaleAddr (t : Tens) (i j : Nat) : Nat := t.fields.scale + 2 * (i * t.fields.blocks + j)

/-! ## What a slot does with buffers -/

/-- The taker of an origin in the slot that runs. -/
def State.slotTaker (s : State) : Taker :=
  .kern s.issue.kid 7 (s.issue.addr.toNat + s.issue.slot * 2 ^ 11) s.slotWord.toNat

/-- Reading ranges, each an address and a count of bytes, consumes their uncorrectable words (R200). -/
def touchRanges (b : BufId) (l : List (Nat × Nat)) : Slot Unit := do
  modify fun s => s.consumeRanges s.issue.kid s.slotTaker b l
  checkOrigins

/-- Reading a range consumes its uncorrectable words. -/
def touchBuf (b : BufId) (addr n : Nat) : Slot Unit := touchRanges b [(addr, n)]

/-- COLD-BANK for a range that is not AWAKE (R204). -/
def checkAwake (b : BufId) (lo hi : Nat) : Slot Unit := do
  match (← curKern).coldByte b lo hi with
  | some a => trapWith 0x07 (wordOf (coldTval b a)) 0
  | none => return

/-- OWNER for a range of which an engine owns a region. -/
def checkOwner (b : BufId) (lo hi : Nat) : Slot Unit := do
  match (← curKern).ownedByte b lo hi 0 with
  | some a => trapWith 0x05 (wordOf a) 0
  | none => return

/-- The old contents of an AB line or an XS tile, as writes that restore it, and the marks it had. -/
def Kern.snapshot (k : Kern) (b : BufId) (addr n : Nat) : BWrite × List (BufId × Nat × Option Origin) :=
  (⟨b, addr, (k.buf b).mem.read addr n, none⟩, (sectorsOf addr n).map fun s => (b, s, Tab.get? (k.buf b).marks s))

/-- The uncorrectable words of a range (R200). -/
def Kern.snapshotUe (k : Kern) (b : BufId) (addr n : Nat) : List (BufId × Nat) :=
  ((k.buf b).ue.filter (rangeTouches (addr, n))).map fun w => (b, w)

/-- Log what a write of a range will first overwrite in the open segment (14 R375), within the limits of R377. -/
def logWrite (b : BufId) (addr n : Nat) : Slot Unit := do
  let k ← curKern
  match k.seg with
  | none => return
  | some g =>
    if b = .ab then
      let new := ((List.range ((addr + n - 1) / 64 - addr / 64 + 1)).map (· + addr / 64)).filter fun l => !g.lines.contains l
      let snaps := new.map fun l => k.snapshot .ab (64 * l) 64
      let g := { g with
        lines := g.lines ++ new, undo := g.undo ++ snaps.map (·.1), undoMarks := g.undoMarks ++ snaps.flatMap (·.2),
        undoUe := g.undoUe ++ new.flatMap fun l => k.snapshotUe .ab (64 * l) 64 }
      if g.lines.length > 256 then throw (.segment 2)
      modCur fun y => { y with seg := some g }
    else if b = .xs then
      let new := ((List.range ((addr + n - 1) / 8192 - addr / 8192 + 1)).map (· + addr / 8192)).filter fun t => !g.tiles.contains t
      let snaps := new.map fun t => k.snapshot .xs (8192 * t) 8192
      let g := { g with
        tiles := g.tiles ++ new, undo := g.undo ++ snaps.map (·.1), undoMarks := g.undoMarks ++ snaps.flatMap (·.2),
        undoUe := g.undoUe ++ new.flatMap fun t => k.snapshotUe .xs (8192 * t) 8192 }
      if g.tiles.length > 8 then throw (.segment 3)
      modCur fun y => { y with seg := some g }

/-- The place of the instruction in the slot that runs in the order of issue, which a segment's signature follows (14 R379). -/
def State.issueKey (s : State) : Nat := 8 * (s.kern s.issue.kid).cyc + s.issue.slot

/-- A delayed write of the slot that runs, with what an origin entry says of its instruction, and its place in the order of issue. -/
def State.slotWrite (s : State) (d : DWrite) : DWrite :=
  { d with
    loc := s.issue.addr.toNat + s.issue.slot * 2 ^ 11, insn := s.slotWord.toNat, made := s.issue.made
    opnd := s.issue.opnd, key := s.issueKey }

/-- Delay writes: they take effect in core cycle c + lat (DKind tells which event makes them so). -/
def delayWrites (lat : Nat) (kind : DKind) (ws : List BWrite) : Slot Unit :=
  do
  let s ← get
  modCur fun k => { k with dw := k.dw ++ [s.slotWrite ⟨k.cyc + lat, kind, ws, [], [], [], false, 0, 0, [], 0, 0⟩] }

/-- Writes of 256 bytes of 32-bit elements at 4-byte addresses: untagged elements as bytes, tagged elements as marks of
their sectors (04 R93, 07 R192). -/
def elementWrites (b : BufId) (x : VOp) (sel : Word) (addrOf : Nat → Nat) : List BWrite :=
  ((List.range 64).filter (sel.getLsbD ·)).map fun i =>
    let e := x.lane false i
    if x.tags.getLsbD i then ⟨b, addrOf i, [], some (BitVec.ofNat 15 e)⟩
    else ⟨b, addrOf i, leBytes 4 e, none⟩

end Sys2Proof.Machine
end

