-- ==== Sys2Proof/Machine/SysReg.lean ====
section
/-! DEFINITION. System registers: MFS and MTS (05 R129-R131; 04 R84; 06 R151, R152; 14 R354, R361). -/

namespace Sys2Proof.Machine

/-- The word of a loop register (06 R151). -/
def LoopReg.word (l : LoopReg) : Word :=
  wordOf (l.left.toNat + l.start.toNat * 2 ^ 32 + l.k.toNat * 2 ^ 45 + l.iim1.toNat * 2 ^ 53 + l.sm1.toNat * 2 ^ 59
    + (if l.drain then 2 ^ 62 else 0) + (if l.active then 2 ^ 63 else 0))

/-- The slice cycles left at a kernel's site (05 R131). -/
def State.sliceLeft (s : State) (k : Kern) : Nat :=
  match s.dom? k.dom with
  | none => 0
  | some d => match Tab.get? s.sites d.site with | some x => x.slice % 2 ^ 32 | none => 0

/-- GANG (05 R131). -/
def Kern.gangWord (k : Kern) : Nat := (k.gs - 1) * 2 ^ 24 + (k.gq - 1) * 2 ^ 16 + k.n / k.gq * 2 ^ 8 + k.n % k.gq

/-- STAGE (05 R131). -/
def Kern.stageWord (k : Kern) : Nat :=
  let st := k.n / k.gq
  (if st + 1 = k.gs then 2 ^ 9 else 0) + (if st = 0 then 2 ^ 8 else 0) + (k.gs - 1) * 2 ^ 4 + st

/-- DCYC as a core reads it: in a handler, the stamp of the bundle at TPC (06 R152). -/
def State.stampOf (s : State) (k : Kern) : Nat := if k.ctl.handler then k.ctl.trapStamp else s.dcyc k.dom

/-- The value of a system register (R130). -/
def State.sysReg (s : State) (k : Kern) (n : Nat) : Word :=
  match n with
  | 0x00 => wordOf s.hub.time
  | 0x01 => wordOf (s.stampOf k)
  | 0x02 => wordOf k.core
  | 0x03 => wordOf k.gangWord
  | 0x04 => wordOf k.stageWord
  | 0x05 => Config.devfeat
  | 0x06 => wordOf (s.sliceLeft k)
  | 0x08 => k.spr.tcause.setWidth 64
  | 0x09 => k.spr.tpc.setWidth 64
  | 0x0A => k.spr.tval
  | 0x0B => k.spr.torig.setWidth 64
  | 0x0C => k.spr.tvec.setWidth 64
  | 0x10 => if k.spr.pstore then 1 else 0
  | 0x11 => k.spr.fpctl.setWidth 64
  | 0x12 => k.spr.fpflags.setWidth 64
  | 0x13 => k.spr.srseed
  | 0x14 => k.spr.bwphase.setWidth 64
  | 0x18 => k.ctl.lc0.word
  | _ => k.ctl.lc1.word

/-- The registers that MTS writes (R130). -/
def writableSysRegs : List Nat := [0x09, 0x0C, 0x10, 0x11, 0x12, 0x13]

/-- A value that MTS refuses: one that breaks the layout of TPC, TVEC or POISONCTL (14 R354, R361). -/
def sysRegRefuses (n : Nat) (v : Word) : Bool :=
  match n with
  | 0x09 => v.toNat / 2 ^ 14 != 0
  | 0x0C => !(v.toNat % 16 == 0 && decide (0x780 ≤ v.toNat) && decide (v.toNat ≤ 0x7C0))
  | 0x10 => v.toNat / 2 != 0
  | _ => false

/-- The special registers after MTS (R129): conditions that landed in this cycle are ORed in after a write of FPFLAGS;
a zero SRSEED stores 1 (04 R81). -/
def Spr.write (p : Spr) (n : Nat) (v : Word) : Spr :=
  match n with
  | 0x09 => { p with tpc := v.setWidth 14 }
  | 0x0C => { p with tvec := v.setWidth 11 }
  | 0x10 => { p with pstore := v.getLsbD 0 }
  | 0x11 => { p with fpctl := v.setWidth 5 }
  | 0x12 => { p with fpflags := v.setWidth 5 ||| p.fpLanded }
  | 0x13 => { p with srseed := if v = 0 then 1 else v }
  | _ => p

/-- MFS (R129). -/
def execMfs (o : Op) (s : State) : Out :=
  .next (s.slotOp (.mfs o) o (do
    let s ← get
    writeScalar o 1 (.plain (s.sysReg (s.kern s.issue.kid) o.m.toNat)) 0))

/-- MTS (R129): the register's access first, then a tagged value, then the value. -/
def execMts (o : Op) (s : State) : Out :=
  .next (s.slotOp (.mts o) o (do
    let a ← readScalar o.a
    let n := o.m.toNat
    if !writableSysRegs.contains n then trapWord 0x03 0
    else if a.tagged then trapWord 0x12 a.origin
    else if sysRegRefuses n a.v then illegal
    else modCur fun k => { k with spr := k.spr.write n a.v }))

end Sys2Proof.Machine
end

