-- ==== Sys2Proof/Machine/Port.lean ====
section
/-! DEFINITION. The device-memory port of S1: MLD, MST, AMO and RED as they issue (05 R132-R139). What the port does with
an access afterwards stands in `Order`. -/

namespace Sys2Proof.Machine

/-- The width in bytes. -/
def accessBytes (o : Op) : Nat := if o.w then 8 else 4
/-- MOD bits 7:4: the AMO and RED operation. -/
def amoOp (o : Op) : Nat := o.m.toNat / 16

/-- The address checks of R133 steps 1 to 3. -/
def checkAddress (o : Op) (srcs : List SVal) : Slot Nat := do
  let a := srcs.foldl (fun (acc : Word) x => acc + x.v) 0
  match mergePoison (srcs.map SVal.org?) with
  | some g => trapWord 0x11 g
  | none =>
    if a.toNat / 2 ^ 49 ≠ 0 ∨ a.toNat % accessBytes o ≠ 0 then trapWith 0x09 a 0
    return a.toNat

/-- The translation of a core's port: the cluster's cached one, else the one that the walk of the moment gives. -/
def State.portTrans (s : State) (core ctx va : Nat) (write : Bool) : Option Trans :=
  match s.cached (core / 8) ctx va write with
  | some t => some t
  | none => (s.translate ctx va write).toOption

/-- A poison store (R135): under TRAP it traps; under PROPAGATE it traps on a PCLEAN page, whose translation the bundle
has waited for. -/
def checkPoisonStore (addr : Nat) (g : Option Origin) : Slot Unit := do
  match g with
  | none => return
  | some g =>
    let s ← get
    let k := s.kern s.issue.kid
    if !k.spr.pstore then trapWith 0x12 (wordOf addr) g
    else match s.portTrans k.core k.ctx addr true with
      | some t => if t.pclean then trapWith 0x12 (wordOf addr) g
      | none => return

/-! ## The store buffer's order and the segment's signature (13 R333, R338; 14 R379) -/

/-- An ordering point. -/
def POp.isFence (o : POp) : Bool := match o with | .fence _ => true | _ => false

/-- The access has not been performed. -/
def PItem.open_ (x : PItem) : Bool := x.st != .performed

/-- Fences with nothing open before them have done their work. -/
def dropFences (earlier : Bool) : List PItem → List PItem
  | [] => []
  | x :: t =>
    if x.op.isFence then (if earlier then x :: dropFences earlier t else dropFences earlier t)
    else x :: dropFences (earlier || x.open_) t

/-- The port after a change of what stands in it. -/
def State.settlePort (s : State) (c : Nat) : State := s.modCore c fun x => { x with port := dropFences false x.port }

/-- Numbers enter a trace behind those of instructions issued no later. -/
def insertTrace (key : Nat) (l : List Nat) : List (Nat × List Nat) → List (Nat × List Nat)
  | [] => [(key, l)]
  | e :: t => if key < e.1 then (key, l) :: e :: t else e :: insertTrace key l t

/-- The signature of what a segment has written back and held, folded in order of issue: no wait changes it. -/
def Seg.sig (g : Seg) : Word := g.trace.foldl (fun h e => e.2.foldl Config.signature h) 0

/-- What an instruction writes back or holds joins the open segment's trace. -/
def Kern.signature (k : Kern) (key : Nat) (l : List Nat) : Kern :=
  match k.seg with
  | none => k
  | some g => { k with seg := some { g with trace := insertTrace key l g.trace } }

/-- The numbers that the held operations fold into a signature. -/
def HeldOp.code (h : HeldOp) : Nat :=
  match h with
  | .ego e id => 7 + 16 * (e + 8 * id.toNat)
  | .qpost q bytes _ => 8 + 16 * (q + 2 ^ 64 * leNat bytes)
  | .bwph v => 9 + 16 * v.toNat

/-- The number of a held port access. -/
def PItem.code (x : PItem) : Nat :=
  10 + 16 * (x.va + 2 ^ 49 * (x.data.toNat + 2 ^ 64 * (x.insn + 2 ^ 64 * (match x.poison with | some o => o.toNat + 1 | none => 0))))

/-- Room among the operations a segment may hold (14 R377 reason 4). -/
def holdStore : Slot Bool := do
  match (← curKern).seg with
  | none => return false
  | some g =>
    if g.heldStores + g.held.length + 1 > 16 then throw (.segment 4)
    modCur fun y => { y with seg := some { g with heldStores := g.heldStores + 1 } }
    return true

/-- Append an access to the core's port; a destination becomes pending (R106), and a held one's word joins the signature (14 R379). -/
def portAppend (o : Op) (op : POp) (va : Nat) (data : Word) (poison : Option Origin) (f : Bool) (cmp : Word)
    (cmpPoison : Option Origin) (acq rel : Bool) (dst : Option Nat) (held : Bool) : Slot Unit := do
  let s ← get
  let k := s.kern s.issue.kid
  let stamp := if k.ctl.handler then none else some (s.dcyc k.dom)
  let c := s.core k.core
  let item : PItem := ⟨c.pseq, k.kid, op, va, o.w, data, poison, f, cmp, cmpPoison, acq, rel, o.rm, stamp, dst, none,
    .waiting, held, none, s.issue.addr.toNat + s.issue.slot * 2 ^ 11, s.slotWord.toNat, [], s.hub.time, [], s.issue.opnd, s.issueKey⟩
  modify fun s => s.modCore k.core fun c => { c with port := c.port ++ [item], pseq := c.pseq + 1 }
  if held then modCur fun y => y.signature item.key [item.code]
  match dst with
  | none => return
  | some i => modCur fun y => { y with regs := Tab.put Reg.zero y.regs i { Tab.get Reg.zero y.regs i with pend := true } }

/-- The destination register of MLD and AMO as `Kern.regs` numbers it. -/
def portDest (o : Op) : Slot (Option Nat) := do
  if o.nw then return none
  return some (scalarIndex (← curKern).ctl.handler (32 * o.dstBank + o.dstIdx))

/-- MLD (R134). -/
def execMld (o : Op) (s : State) : Out :=
  .next (s.slotOp (.mld o) o (do
    let a ← readScalar o.a
    let b ← readScalar o.b
    setOpnd (packNat 64 [a.v.toNat, b.v.toNat])
    let va ← checkAddress o [a, b]
    portAppend o .load va 0 none false 0 none (o.m.toNat / 16 == 1) false (← portDest o) false))

/-- The value a store carries: with F and poison, the float poison encoding with the origin; the origin of a poison
store (R135). -/
def storeValue (o : Op) (f : Bool) (v : SVal) : Word × Option Origin :=
  let x := v.cut o.w
  match (if x.tagged then some x.origin else if f then poisonOrigin (if o.w then 3 else 2) x.v.toNat false else none) with
  | none => (x.v, none)
  | some g => (if f then wordOf (poisonBits (fmtOf o.w) g) else x.v, some g)

/-- MST (R135). -/
def execMst (o : Op) (s : State) : Out :=
  .next (s.slotOp (.mst o) o (do
    let a ← readScalar o.a
    let v ← readScalar o.b
    setOpnd (packNat 64 [a.v.toNat, v.v.toNat])
    let va ← checkAddress o [a]
    let f := o.m.getLsbD 6
    let (data, g) := storeValue o f v
    checkPoisonStore va g
    let held ← holdStore
    portAppend o .store va data g f 0 none false (o.m.toNat / 16 % 4 == 2) none held))

/-- AMO (R136); with resilience on it traps SEGMENT (R139). -/
def execAmo (o : Op) (s : State) : Out :=
  .next (s.slotOp (.amo o) o (do
    let a ← readScalar o.a
    let v ← readWidth o.w o.b
    let d ← (if amoOp o = 10 then readDest o o.w else return SVal.zero)
    setOpnd (packNat 64 [a.v.toNat, v.v.toNat])
    let va ← checkAddress o [a]
    checkPoisonStore va (mergePoison [v.org?, d.org?])
    if (← curKern).resil then throw (.segment 5)
    portAppend o (.amo (amoOp o)) va v.v v.org? false d.v d.org? true true (← portDest o) false))

/-- RED (R136). -/
def execRed (o : Op) (s : State) : Out :=
  .next (s.slotOp (.red o) o (do
    let a ← readScalar o.a
    let v ← readWidth o.w o.b
    setOpnd (packNat 64 [a.v.toNat, v.v.toNat])
    let va ← checkAddress o [a]
    checkPoisonStore va v.org?
    let held ← holdStore
    portAppend o (.red (amoOp o)) va v.v v.org? false 0 none false false none held))

end Sys2Proof.Machine
end

