-- ==== Sys2Proof/Machine/Engines.lean ====
section
/-! DEFINITION. The engines' ports as the core sees them (09 R242, R243; 06 R162), and the hardware queues as packets join
them (15 R386, R400). -/

namespace Sys2Proof.Machine

/-- a at or below b in 32-bit serial-number arithmetic (06 R162). -/
def serialLe (a b : BitVec 32) : Bool := decide ((b - a).toNat < 2 ^ 31)

/-- An operation of engine e, queued or running, names the region. -/
def Kern.names (k : Kern) (e key : Nat) : Bool := (k.port e).q.any fun o => !o.done && o.regions.contains key

/-- The half of IS, 0 or 1, into which an EXPAND transfer writes (09 R244); 2 is RES. -/
def isHalf (addr : Nat) : Nat := if addr < 0x3C0 then 0 else if addr < 0x780 then 1 else 2

/-- A shadow register an operation captured. -/
def Eop.reg (o : Eop) (n : Nat) : Nat := (Tab.get 0 o.sh n).toNat

/-- The transfer is an EXPAND that writes into the half. -/
def Eop.expandsInto (o : Eop) (half : Nat) : Bool :=
  let d := bitsOf (o.reg 10) 10 0
  let n := bitsOf (o.reg 10) 22 12
  o.code == 1 && bitsOf (o.reg 0) 0 0 == 1 && decide (isHalf d ≤ half) && decide (half ≤ isHalf (d + n))

/-- The half may not be entered (06 R145): stale, or an EXPAND into it is outstanding. -/
def Kern.halfClosed (k : Kern) (half : Nat) : Bool :=
  (if half = 0 then k.ctl.stale0 else k.ctl.stale1)
    || (List.range 4).any fun e => (k.port e).q.any fun o => !o.done && o.expandsInto half

/-- A running EXPAND has written the bundle address. -/
def Run.rewrote (r : Run) (a : Nat) : Bool :=
  let d := bitsOf (r.op.reg 10) 10 0
  r.op.code == 1 && bitsOf (r.op.reg 0) 0 0 == 1 && decide (d ≤ a) && decide (a < d + r.cur.m)

/-- An IFENCE on core c: what completed EXPANDs have written is what is fetched from now on (06 R146); writes of running ones stay
open (03 R58). -/
def State.fenceCode (s : State) (c : Nat) : State :=
  let running := fun (a : Nat) =>
    s.kerns.any fun k => k.core == c && (List.range 4).any fun e => (k.port e).runs.any fun r => r.rewrote a
  s.modCore c fun x => { x with old := x.old.filter fun b => running b.1 }

/-! ## Queues -/

/-- A queue. -/
def State.queue (s : State) (q : Nat) : Queue := Tab.get Queue.reset s.queues q

/-- The state with one queue changed. -/
def State.modQueue (s : State) (q : Nat) (f : Queue → Queue) : State :=
  { s with queues := Tab.put Queue.reset s.queues q (f (s.queue q)) }

/-- The packets in the spill ring. -/
def Queue.ringFill (x : Queue) : Nat := (x.spill.filter fun p => !p.full).length

/-- The packets in the FIFO: one that met a full ring has no place there. -/
def Queue.fill (x : Queue) : Nat := (x.fifo.filter fun p => !p.full).length

/-- A packet joins a queue (R386): the FIFO of 16, else the spill ring; none where the ring is full. A stopped queue
completes it with STOPPED. -/
def Queue.append (x : Queue) (p : Packet) : Option Queue :=
  if x.st = .stopped then some { x with cur := x.cur ++ [⟨p.bytes, .done 0x41 0 0, none, false, none⟩] }
  else if x.fill < 16 ∧ x.spill = [] then some { x with fifo := x.fifo ++ [p] }
  else if x.ringFill < x.ringcap.toNat then
    some { x with spill := x.spill ++ [{ p with ring := some x.ringnext }], ringnext := x.ringnext + 1 }
  else none

/-- The address of a place of the spill ring: RINGCAP packets of 128 bytes from RINGBASE on (R386, 16 R412; log 9). -/
def Queue.ringAddr (x : Queue) (n : Nat) : Nat := x.ringbase.toNat + 128 * (n % x.ringcap.toNat)

/-- The hub writes a packet into the ring of its queue's context, once the pans perform it (09 R235, R236): whether it has; a piece
that finds no translation is dropped. -/
def State.ringWrite (s : State) (ctx va : Nat) (bytes : List Byte) : State × Bool :=
  match s.hubReach ctx va 128 true with
  | (s, false) => (s, false)
  | (s, true) => ((cutPieces 64 4 0 va 128).foldl (fun s p =>
      match s.hubWrite ctx p.2.1 ((bytes.drop p.1).take p.2.2) with
      | .ok (t, _) => t
      | .error _ => s) s, true)

/-- The packet as the ring holds it now; none where a piece finds no translation or is marked. -/
def State.ringRead (s : State) (ctx va : Nat) : State × Option (List Byte) :=
  (cutPieces 64 4 0 va 128).foldl (fun acc p =>
    match acc.1.hubRead ctx p.2.1 p.2.2 with
    | .ok (s, some l) => (s, if l.any fun b => b.mark.isSome then none else acc.2.map fun x => x ++ l.map (·.b))
    | .ok (s, none) => (s, none)
    | .error _ => (acc.1, none)) (s, some [])

/-- The write of packet n of the spill ring is made, where the pans perform it. -/
def State.writeOwed (s : State) (q : Nat) (n : Nat) : State :=
  let x := s.queue q
  let made := fun (s : State) => s.modQueue q fun y => { y with owed := y.owed.filter (· != n) }
  match x.spill.find? fun p => p.ring == some n with
  | none => made s
  | some p =>
    match s.ringWrite x.ctx (x.ringAddr n) p.bytes with
    | (t, true) => made t
    | (t, false) => t

/-- A packet that joined the spill ring stands in device memory, once its write is made. -/
def State.spilled (s : State) (q : Nat) : State :=
  match (s.queue q).spill.getLast? with
  | some p =>
    match p.ring with
    | some n =>
      if n + 1 = (s.queue q).ringnext then (s.modQueue q fun y => { y with owed := y.owed ++ [n] }).writeOwed q n else s
    | none => s
  | none => s

/-- A packet joins queue q, if the queue takes it. -/
def State.joinQueue (s : State) (q : Nat) (p : Packet) : Option State :=
  let x := s.queue q
  (x.append p).map fun y =>
    let s := s.modQueue q fun _ => y
    if x.spill.length < y.spill.length then s.spilled q else s

/-- The oldest packet of the ring moves into the FIFO where there is room, as the ring holds it, once it stands there and the pans
perform the read. -/
def State.refillOne (s : State) (q : Nat) : State :=
  let x := s.queue q
  match x.spill with
  | [] => s
  | p :: t =>
    if 16 ≤ x.fill ∧ p.full = false then s
    else
      let enter := fun (s : State) (b : Option (List Byte)) =>
        s.modQueue q fun y => { y with fifo := y.fifo ++ [{ p with bytes := b.getD p.bytes, ring := none }], spill := t }
      match p.ring with
      | none => enter s none
      | some n =>
        if x.owed.contains n then s
        else
          match s.hubReach x.ctx (x.ringAddr n) 128 false with
          | (s, false) => s
          | (s, true) => let (s, b) := s.ringRead x.ctx (x.ringAddr n); enter s b

/-- The FIFO is filled from the ring, in arrival order (R386). -/
def State.refill (s : State) (q : Nat) : State := (List.range (s.queue q).spill.length).foldl (fun s _ => s.refillOne q) s

/-- The writes and the reads of the ring that have waited at a pan are tried again. -/
def State.attendRing (s : State) (q : Nat) : State := ((s.queue q).owed.foldl (fun s n => s.writeOwed q n) s).refill q

/-- A core's packet joins queue q (R165, R400): it is taken after every port access of the core below `pseq`; a full ring makes
it complete with QFULL in its turn. -/
def State.postPacket (s : State) (k q : Nat) (bytes : List Byte) (pseq : Nat) : State :=
  let p : Packet := ⟨bytes, some ((s.kern k).core, pseq), false, none⟩
  match s.joinQueue q p with
  | some t => t
  | none => s.modQueue q fun x => { x with spill := x.spill ++ [{ p with full := true }] }

end Sys2Proof.Machine
end

