-- ==== Sys2Proof/Machine/Control.lean ====
section
/-! DEFINITION. The C slot: transfers, hardware loops, waits, fences, queue posts, traps and halting (06 R140-R151,
R154, R155, R162-R166), the flow check of 03 R61, and the end of a bundle. -/

namespace Sys2Proof.Machine

/-! ## Hardware loops (R147-R151) -/

/-- The first bundle after a loop's body. -/
def LoopReg.exit (l : LoopReg) : Nat := l.start.toNat + l.iim1.toNat + 1

/-- Start of a pass (R147). -/
def LoopReg.pass (l : LoopReg) (preempt : Bool) : LoopReg :=
  let drain := l.drain || preempt
  let k := (l.k <<< 1) &&& BitVec.ofNat 8 (2 ^ (l.sm1.toNat + 1) - 1)
  if l.left ≠ 0 ∧ drain = false then { l with drain := drain, k := k ||| 1, left := l.left - 1 }
  else { l with drain := drain, k := k }

/-- A pass boundary: the register after it, and the bundle to which an exit flows (R147, R149, R150). After LBRK with D = 0 the
register keeps the last pass's K (log 112: DESIGN CHOICE). -/
def LoopReg.boundary (l : LoopReg) (preempt : Bool) : LoopReg × Option Nat :=
  if l.last then ({ l with active := false, left := 0, last := false }, some l.exit)
  else
    let m := l.pass preempt
    if m.k ≠ 0 then (m, .none)
    else if m.drain && m.left != 0 then ({ m with active := false, susp := true }, some (m.start.toNat - 1))
    else ({ m with active := false }, some m.exit)

/-- The innermost active loop. -/
def Ctl.inner (c : Ctl) : Option LoopReg :=
  if c.lc1.active then some c.lc1 else if c.lc0.active then some c.lc0 else none

/-- The control state with the innermost active loop's register changed. -/
def Ctl.setInner (c : Ctl) (l : LoopReg) : Ctl := if c.lc1.active then { c with lc1 := l } else { c with lc0 := l }

/-- The core rewinds its open segment: from the detection of an error to the commit after the second run (14 R379, R380). -/
def Kern.inRewind (k : Kern) : Bool := match k.seg with | some g => g.error || g.rerun != 0 | none => false

/-- A pre-emption request is in force for the kernel's domain (R169), and no segment that holds an exchange puts it off (R160). -/
def State.preempting (s : State) (k : Kern) : Bool :=
  !k.inRewind && !(k.seg.isSome && s.exchanging k.dom) && match s.dom? k.dom with | some d => d.preempt | none => false

/-- Where flow goes after the bundle at `addr` when nothing transfers, and whether it is a back edge or enters a loop, whose
first pass has not begun while K is 0 (R61, R147). -/
def Kern.flow (k : Kern) (preempt : Bool) (addr : BitVec 11) : Nat × Bool :=
  let next := addr.toNat + 1
  if k.ctl.handler then (next, false)
  else
    match k.ctl.inner with
    | none => (next, false)
    | some l =>
      if next = l.exit ∨ (l.k = 0 ∧ next = l.start.toNat) then ((l.boundary preempt).2.getD l.start.toNat, true)
      else (next, false)

/-- The bundle that would issue next, if the bundle in mid-issue has one (R61). -/
def State.flowTarget (s : State) : Option Nat :=
  let i := s.issue
  if i.halt || i.rft.isSome then none
  else
    let k := s.kern i.kid
    some (match i.target with | some t => t.toNat | none => (k.flow (s.preempting k) i.addr).1)

/-- The flow check (R61): a next bundle outside the allotment traps ILLEGAL with the target as TVAL. -/
def checkFlow : Slot Unit := do
  let s ← get
  match s.flowTarget with
  | none => return
  | some t => if !isAllotted (s.kern s.issue.kid).res.is t then trapWith 0x02 (wordOf t) 0

/-- Run a C-slot operation, and then the flow check, which comes after the guard has decided (R61). -/
def State.cOp (s : State) (i : Instr) (o : Op) (body : Slot Unit) : State :=
  if s.issue.active then s.runSlot (slotBody i o body >>= fun _ => checkFlow) else s

/-- A value in control: a tag traps POISON-BRANCH (R142). -/
def controlValue (a : SVal) : Slot Word := do
  if a.tagged then trapWord 0x10 a.origin
  return a.v

/-- A source that the C slot reads. -/
def controlSource (sel : BitVec 8) : Slot Word := do controlValue (← readScalar sel)

/-- Two sources, their origins merged. -/
def controlSources (a b : BitVec 8) : Slot (Word × Word) := do
  let x ← readScalar a
  let y ← readScalar b
  match mergePoison [x.org?, y.org?] with
  | some g => trapWord 0x10 g
  | none => return (x.v, y.v)

/-! ## Transfers (R143-R146) -/

/-- A relative or absolute target (R143). -/
def directTarget (o : Op) : Slot (BitVec 11) := do
  let v ← controlSource o.a
  if o.m.getLsbD 0 then
    if v.toNat / 2 ^ 11 ≠ 0 then trapWith 0x02 v 0
    return v.setWidth 11
  else return (← get).issue.addr + v.setWidth 11

/-- The target in a register (R143). -/
def indirectTarget (o : Op) : Slot (BitVec 11) := do
  let v ← controlSource o.a
  if v.toNat / 2 ^ 11 ≠ 0 then trapWith 0x02 v 0
  return v.setWidth 11

/-- A taken transfer, to 0x800 by a return past the last bundle; within an active loop body it traps ILLEGAL (R148). -/
def transferTo (t : BitVec 12) : Slot Unit := do
  let c := (← curKern).ctl
  if !c.handler && c.inner.isSome then illegal
  modIssue fun i => { i with target := some t }

/-- Push the return address and transfer (R144). -/
def callTo (t : BitVec 11) : Slot Unit := do
  transferTo (t.setWidth 12)
  if 16 ≤ (← curKern).ctl.rstack.length then illegal
  let a := (← get).issue.addr.setWidth 12 + 1
  modCur fun k => { k with ctl := { k.ctl with rstack := a :: k.ctl.rstack } }

/-- NOP (R166). -/
def execNop (o : Op) (s : State) : Out := .next (s.cOp (.nop o) o (pure ()))
/-- BR (R143). -/
def execBr (o : Op) (s : State) : Out := .next (s.cOp (.br o) o (do transferTo ((← directTarget o).setWidth 12)))
/-- JMP (R143). -/
def execJmp (o : Op) (s : State) : Out := .next (s.cOp (.jmp o) o (do transferTo ((← indirectTarget o).setWidth 12)))
/-- CALL (R144). -/
def execCall (o : Op) (s : State) : Out := .next (s.cOp (.call o) o (do callTo (← directTarget o)))
/-- CALLR (R144). -/
def execCallr (o : Op) (s : State) : Out := .next (s.cOp (.callr o) o (do callTo (← indirectTarget o)))

/-- RET (R144). -/
def execRet (o : Op) (s : State) : Out :=
  .next (s.cOp (.ret o) o (do
    match (← curKern).ctl.rstack with
    | [] => illegal
    | a :: t =>
      transferTo a
      modCur fun k => { k with ctl := { k.ctl with rstack := t } }))

/-- BSWP (R145). -/
def execBswp (o : Op) (s : State) : Out :=
  .next (s.cOp (.bswp o) o (do
    let t ← directTarget o
    let want := if isHalf (← get).issue.addr.toNat = 0 then 1 else 0
    if isHalf t.toNat ≠ want then trapWith 0x02 (t.setWidth 64) 0
    if (← curKern).halfClosed want then illegal
    transferTo (t.setWidth 12)))

/-- IFENCE (R146). -/
def execIfence (o : Op) (s : State) : Out :=
  .next (s.cOp (.ifence o) o (do
    modify fun s => s.fenceCode (s.kern s.issue.kid).core
    modCur fun k => { k with ctl := { k.ctl with stale0 := false, stale1 := false } }
    modIssue fun i => { i with gap := 5 }))

/-- LOOP (R147, R148, R150): the pass begins at the boundary that follows. -/
def execLoop (o : Op) (s : State) : Out :=
  .next (s.cOp (.loop o) o (do
    let s ← get
    let k ← curKern
    let start := s.issue.addr.toNat + 1
    let level := if k.ctl.lc0.active then k.ctl.lc1 else k.ctl.lc0
    let resumes := level.susp && !level.active && decide (level.start.toNat = start)
    let x ← (if resumes then return SVal.plain (level.left.setWidth 64) else readScalar o.a)
    let y ← readScalar o.b
    if k.ctl.handler || k.ctl.lc1.active then illegal
    match mergePoison [x.org?, y.org?] with
    | some g => trapWord 0x10 g
    | none => pure ()
    let n := x.v
    let ii := y.v
    if ii.toNat = 0 ∨ 64 < ii.toNat then trapWith 0x02 ii 0
    if n.toNat / 2 ^ 32 ≠ 0 then illegal
    let last := start + ii.toNat - 1
    if isHalf start ≠ isHalf last || !isAllotted k.res.is start || !isAllotted k.res.is last
        || (k.ctl.lc0.active && (decide (start < k.ctl.lc0.start.toNat) || decide (k.ctl.lc0.exit ≤ last + 1))) then illegal
    let l : LoopReg := ⟨true, s.preempting k, o.m.extractLsb' 0 3, BitVec.ofNat 6 (ii.toNat - 1), 0, BitVec.ofNat 11 start,
      n.setWidth 32, false, false⟩
    modCur fun k => { k with ctl := if k.ctl.lc0.active then { k.ctl with lc1 := l } else { k.ctl with lc0 := l } }))

/-- LBRK (R149). -/
def execLbrk (o : Op) (s : State) : Out :=
  .next (s.cOp (.lbrk o) o (do
    let c := (← curKern).ctl
    match (if c.handler then none else c.inner) with
    | none => illegal
    | some l =>
      let m : LoopReg := if o.m.getLsbD 0 then { l with drain := true } else { l with last := true }
      modCur fun k => { k with ctl := k.ctl.setInner m }))

/-! ## Votes and waits (R154, R155, R162) -/

/-- A wait that begins after the bundle's slots have committed. -/
def waitFor (w : Wait) : Slot Unit := modIssue fun i => { i with wait := w }

/-- A bundle other than a rendezvous may not close the core's segment while one of the domain holds an exchange (R159, R160). -/
def checkClosing : Slot Unit := do
  let s ← get
  let k := s.kern s.issue.kid
  if k.seg.isSome && s.exchanging k.dom then throw (.segment 6)

/-- SYNC (R154); in a handler a context fault (14 R356). -/
def execSync (o : Op) (s : State) : Out :=
  .next (s.cOp (.sync o) o (do
    if (← curKern).ctl.handler then throw .ctxFault
    waitFor (.sync (hdrCkpt (bundleHeader (← get).issue.bundle)))))

/-- YIELD (R155); it may not close a segment that holds an exchange (R160). -/
def execYield (o : Op) (s : State) : Out :=
  .next (s.cOp (.yield o) o (do
    let k ← curKern
    let a ← readScalar o.a
    if k.ctl.handler then throw .ctxFault
    let v ← controlValue a
    if v = 0 ∨ v.toNat / 2 ^ 32 ≠ 0 then illegal
    checkClosing
    waitFor (.yield v.toNat)))

/-- The first POISON report that a wait for an identifier covers (R162). -/
def Port.report (p : Port) (id : BitVec 32) : Option (BitVec 32 × Origin) :=
  (p.reports.filter fun r => serialLe r.1 id).foldl (fun (b : Option (BitVec 32 × Origin)) r =>
    match b with
    | none => some r
    | some x => if serialLe x.1 r.1 then b else some r) none

/-- The engine port with one report taken. -/
def Port.clearReport (p : Port) (id : BitVec 32) : Port := { p with reports := p.reports.filter fun r => r.1 != id }

/-- An EGO of the open segment, on engine e, is still held and lies at or before the identifier (14 R377 reason 7). -/
def Kern.holdsEgo (k : Kern) (e : Nat) (id : BitVec 32) : Bool :=
  match k.seg with
  | none => false
  | some g => g.held.any fun h => match h with | .ego e' i => e' == e && serialLe i id | _ => false

/-- A WAITX whose slot trapped POISON-STORE has taken the report that its trap names (R162). -/
def State.reportTaken (t s : State) (e : Nat) : State :=
  let k := s.issue.kid
  let x := t.kern k
  if !(s.kern k).ctl.handler && x.ctl.handler && x.spr.tcause == 0x12 then
    t.modKern k fun y => y.modPort e fun p => p.clearReport (x.spr.tval.setWidth 32)
  else t

/-- WAITX (R162). -/
def execWaitx (o : Op) (s : State) : Out :=
  .next ((s.cOp (.waitx o) o (do
    let k ← curKern
    let e := (o.m.extractLsb' 0 3).toNat
    let id := (← controlSource o.a).setWidth 32
    let p := k.port e
    if !serialLe id p.last then trapWith 0x08 (id.setWidth 64) 0
    if k.holdsEgo e id then throw (.segment 7)
    if serialLe id p.xdone then
      match p.report id with
      | none => return
      | some (i, g) => trapWith 0x12 (i.setWidth 64) g
    else waitFor (.waitx e id))) |>.reportTaken s (o.m.extractLsb' 0 3).toNat)

/-- The regions that tN's entry covers, and those of its companions. -/
def Kern.entryKeys (k : Kern) (n : Nat) : List Nat := coveredKeys (k.capture n)

/-- A held EGO of the open segment names the region. -/
def Kern.heldNames (k : Kern) (key : Nat) : Bool :=
  (List.range 7).any fun e => (k.port e).q.any fun o => o.held && o.regions.contains key

/-- WAITO (R162): what stands once the bundle's slots have committed decides whether it waits. -/
def execWaito (o : Op) (s : State) : Out :=
  .next (s.cOp (.waito o) o (do
    let k ← curKern
    let n := o.m.toNat
    let owned := (k.entryKeys n).filter fun key => Tab.get 0 k.own key != 0
    if owned.any fun key => !k.names (Tab.get 0 k.own key - 1) key then trapWith 0x08 (wordOf n) 0
    if owned.any k.heldNames then throw (.segment 7)
    waitFor (.waito n)))

/-- A unit of the kernel is waking. -/
def Kern.anyWaking (k : Kern) : Bool := k.units.any fun u => match u.2 with | .waking _ => true | _ => false

/-- WAITB (R162): as WAITO. -/
def execWaitb (o : Op) (s : State) : Out := .next (s.cOp (.waitb o) o (waitFor .waitb))

/-- The wait with which a bundle ends, once its slots have committed: none where nothing is awaited (R162). -/
def Kern.waitOf (k : Kern) (w : Wait) : Wait :=
  match w with
  | .waito n => if (k.entryKeys n).any fun key => Tab.get 0 k.own key != 0 then w else .none
  | .waitb => if k.anyWaking then w else .none
  | _ => w

/-- A WAITO awaits a region that an EGO of its own bundle has taken and the open segment holds (14 R377 reason 7). -/
def Kern.waitsHeld (k : Kern) (w : Wait) : Bool :=
  match w with
  | .waito n => (k.entryKeys n).any k.heldNames
  | _ => false

/-! ## Fences, queue posts, traps and halting (R163-R166) -/

/-- A FENCE places an ordering point among the port's accesses (R164, 13 R338); behind nothing open it has done its work at once. -/
def placeFence (o : Op) (kind : Nat) : Slot Unit := do
  let s ← get
  let k := s.kern s.issue.kid
  let c := s.core k.core
  let stamp := if k.ctl.handler then none else some (s.dcyc k.dom)
  let item : PItem := ⟨c.pseq, k.kid, .fence kind, 0, false, 0, none, false, 0, none, false, false,
    (o.m.extractLsb' 2 3).toNat, stamp, none, none, .waiting, false, none, s.issue.addr.toNat + s.issue.slot * 2 ^ 11,
    s.slotWord.toNat, [], s.hub.time, [], 0, s.issueKey⟩
  modify fun s => (s.modCore k.core fun c => { c with port := c.port ++ [item], pseq := c.pseq + 1 }).settlePort k.core

/-- FENCE.FULL (R164). -/
def execFenceFull (o : Op) (s : State) : Out := .next (s.cOp (.fenceFull o) o (placeFence o 0))
/-- FENCE.STORE (R164). -/
def execFenceStore (o : Op) (s : State) : Out := .next (s.cOp (.fenceStore o) o (placeFence o 1))
/-- FENCE.LOAD (R164). -/
def execFenceLoad (o : Op) (s : State) : Out := .next (s.cOp (.fenceLoad o) o (placeFence o 2))

/-- Hold an operation until the segment commits (14 R376), within the limit of R377; its word joins the signature (14 R379). -/
def holdOp (h : HeldOp) : Slot Unit := do
  match (← curKern).seg with
  | none => return
  | some g =>
    if g.heldStores + g.held.length + 1 > 16 then throw (.segment 4)
    let key := (← get).issueKey
    modCur fun y => ({ y with seg := some { g with held := g.held ++ [h] } }).signature key [h.code]

/-- QPOST (R165). -/
def execQpost (o : Op) (s : State) : Out :=
  .next (s.cOp (.qpost o) o (do
    let (a, q) ← controlSources o.a o.b
    let k ← curKern
    if a.toNat % 128 ≠ 0 then trapWith 0x09 a 0
    if k.limit .ab < a.toNat + 128 then illegal
    checkOwner .ab a.toNat (a.toNat + 127)
    checkAwake .ab a.toNat (a.toNat + 127)
    let x := (← get).queue q.toNat
    if 128 ≤ q.toNat ∨ x.st = .unbound ∨ x.ctx ≠ k.ctx then illegal
    touchBuf .ab a.toNat 128
    let bytes := (← curKern).ab.mem.read a.toNat 128
    let pseq := ((← get).core k.core).pseq
    if (← curKern).seg.isSome then holdOp (.qpost q.toNat bytes pseq)
    else modify fun s => s.postPacket s.issue.kid q.toNat bytes pseq))

/-- TRAP (R166). -/
def execTrap (o : Op) (s : State) : Out :=
  .next (s.cOp (.trap o) o (do
    let a ← readScalar o.a
    trapWith 0x2A a.v 0))

/-- BRK (R166): a debug stop where management has claimed breakpoints, or holds the debug claim (14 R360). -/
def execBrk (o : Op) (s : State) : Out :=
  .next (s.cOp (.brk o) o (do
    let a ← readScalar o.a
    let h := (← get).hub
    if h.brk || h.debug then waitFor .debug
    else trapWith 0x29 a.v 0))

/-- RFT (R166, R60): it resumes at TPC as it stands at its issue. -/
def execRft (o : Op) (s : State) : Out :=
  .next (s.cOp (.rft o) o (do
    let k ← curKern
    if !k.ctl.handler then illegal
    let pc := k.spr.tpc
    if pc.toNat / 2 ^ 11 = 7 then trapWith 0x02 (pc.setWidth 64) 0
    if !isAllotted k.res.is (pc.toNat % 2 ^ 11) then trapWith 0x02 (wordOf (pc.toNat % 2 ^ 11)) 0
    modIssue fun i => { i with rft := some pc }))

/-- HALT (R166): it closes the core's segment, and is no rendezvous (R159). -/
def execHalt (o : Op) (s : State) : Out :=
  .next (s.cOp (.halt o) o (do
    if (← curKern).ctl.handler then illegal
    checkClosing
    modIssue fun i => { i with halt := true }))

/-- CUIEN.ON (R163). -/
def execCuienOn (o : Op) (s : State) : Out :=
  .next (s.cOp (.cuienOn o) o (modCur fun k => { k with ctl := { k.ctl with cuien := true } }))
/-- CUIEN.OFF (R163). -/
def execCuienOff (o : Op) (s : State) : Out :=
  .next (s.cOp (.cuienOff o) o (modCur fun k => { k with ctl := { k.ctl with cuien := false } }))

/-! ## The end of a bundle (R140) -/

/-- A core has voted on the sync line, or votes by having halted (R154). -/
def Ctl.voted (c : Ctl) : Bool := c.halted || (match c.wait with | .sync _ => true | .yield _ => true | _ => false)

/-- Once every core of the domain has voted, and one waits, the restart is 8 cycles after the last vote. -/
def State.countVotes (s : State) (d : Nat) : State :=
  let mine := s.kerns.filter fun y => y.dom == d
  if (mine.all fun y => y.ctl.voted) && (mine.any fun y => !y.ctl.halted) then
    s.modDom d fun x => { x with restart := match x.restart with | some n => some n | none => some 8 }
  else s

/-- After a bundle's last slot: where its stream goes on and when (R140). A vote owed by an earlier issue of this bundle
is taken (R154). A debug stop sets the window flag (R153). -/
def State.finishBundle (s : State) : State :=
  let i := s.issue
  let k := s.kern i.kid
  let s := { s with issue := { Issue.none with kid := i.kid } }
  match i.rft with
  | some pc => s.returnFromHandler i.kid pc
  | none =>
    let (next, back) := match i.target with
      | some t => (t.toNat, false)
      | none => k.flow (s.preempting k) i.addr
    let vote := match k.ctl.owed with
      | some (a, y) => if a = i.addr ∧ k.ctl.handler = false then some (match y with | some n => Wait.yield n | none => .sync (hdrCkpt (bundleHeader i.bundle))) else none
      | none => none
    let wait := vote.getD (k.waitOf i.wait)
    let s := s.modKern i.kid fun y =>
      let y := if i.target.isSome then y.groupSwitch else y
      { y with ctl := { y.ctl with
        halted := i.halt
        pc := if i.halt then i.addr else if back then (y.ctl.inner.map (·.start)).getD (BitVec.ofNat 11 next) else BitVec.ofNat 11 next
        slot := 0
        gap := max (if i.target.isSome then 2 else 1) i.gap
        boundary := back
        fetches := y.ctl.fetches + 1
        wait := wait
        waitAt := i.addr
        waitDcyc := s.dcyc y.dom
        owed := if vote.isSome then none else y.ctl.owed
        stepOwed := y.ctl.stepOwed || ((s.core y.core).stepArm && !y.ctl.handler) } }
    let s := if wait = .debug then s.breakWindow k.dom else s
    if k.waitsHeld wait then s.uncontained i.kid 0x03 0x22 7 0 (pcValue i.addr 0) 0 0
    else s.countVotes k.dom

end Sys2Proof.Machine
end

