-- ==== Sys2Proof/Machine/VectorFp.lean ====
section
/-! DEFINITION. The floating-point lane operations (07 R177-R179), the conversions (R183-R185) and the reductions (R186)
of the V slots. -/

namespace Sys2Proof.Machine

/-! ## Lane by lane (R177, R178) -/

/-- The first 16 bytes of the lowest source, for an origin entry. -/
def opndOf (srcs : List VOp) : Nat := match srcs with | x :: _ => x.v.toNat % 2 ^ 128 | [] => 0

/-- A latency of the binary32 form, 2 more with D = 1 (R173). -/
def vlat (o : Op) (n : Nat) : Nat := if o.w then n + 2 else n

/-- A lane-by-lane floating-point operation under the write mask. -/
def vecLanes (o : Op) (lat : Nat) (srcs : List VOp) (f : Nat → Arith RVal) : Slot Unit := do
  let m ← controlMask o.m75 o.w
  let (l, fl) ← runArith (opndOf srcs) 0
    (forLanes m (fun i => do return fpLane (fmtOf o.w) (← f i)) (lanesOf o.w) 0)
  writeLanes o lat o.w m l fl

/-- A rounding operation: the exact result of f on the lanes, rounded once by RM and OVF. -/
def vecRound (o : Op) (lat : Nat) (srcs : List VOp) (f : List FVal → Arith FVal) : Slot Unit :=
  vecLanes o (vlat o lat) srcs fun i => do
    roundTo (fmtOf o.w) (← f (srcs.map fun x => laneVal (fmtOf o.w) o.w x i)) o.rm o.sat

/-- A one-source rounding operation. -/
def vecOne (o : Op) (lat : Nat) (f : FVal → Arith FVal) : Slot Unit := do
  let a ← readVector o.w o.a
  vecRound o lat [a] fun l => match l with | [x] => f x | _ => pure .foreign

/-- A two-source rounding operation. -/
def vecTwo (o : Op) (lat : Nat) (f : FVal → FVal → Arith FVal) : Slot Unit := do
  let a ← readVector o.w o.a
  let b ← readVector o.w o.b
  vecRound o lat [a, b] fun l => match l with | [x, y] => f x y | _ => pure .foreign

/-- A fused operation, which reads its destination. -/
def vecThree (o : Op) (f : FVal → FVal → FVal → Arith FVal) : Slot Unit := do
  let a ← readVector o.w o.a
  let b ← readVector o.w o.b
  let d ← readVDest o
  vecRound o 6 [a, b, d] fun l => match l with | [x, y, z] => f x y z | _ => pure .foreign

/-- VADD (R177). -/
def execVadd (o : Op) (s : State) : Out := .next (s.slotOp (.vadd o) o (vecTwo o 6 (fpAdd o.rm)))
/-- VSUB (R177). -/
def execVsub (o : Op) (s : State) : Out := .next (s.slotOp (.vsub o) o (vecTwo o 6 fun a b => fpAdd o.rm a b.negate))
/-- VMUL (R177). -/
def execVmul (o : Op) (s : State) : Out := .next (s.slotOp (.vmul o) o (vecTwo o 6 fpMul))
/-- VFMA (R177). -/
def execVfma (o : Op) (s : State) : Out := .next (s.slotOp (.vfma o) o (vecThree o (fpFma o.rm)))
/-- VFMS (R177). -/
def execVfms (o : Op) (s : State) : Out :=
  .next (s.slotOp (.vfms o) o (vecThree o fun a b d => fpFma o.rm a b d.negate))
/-- VFNMA (R177). -/
def execVfnma (o : Op) (s : State) : Out :=
  .next (s.slotOp (.vfnma o) o (vecThree o fun a b d => fpFma o.rm a.negate b d))
/-- VDIV (R177, 04 R98). -/
def execVdiv (o : Op) (s : State) : Out := .next (s.slotOp (.vdiv o) o (vecTwo o 18 fpDiv))
/-- VSQRT (R177, 04 R98). -/
def execVsqrt (o : Op) (s : State) : Out := .next (s.slotOp (.vsqrt o) o (vecOne o 18 fpSqrt))
/-- VRCP (R177, 04 R98). -/
def execVrcp (o : Op) (s : State) : Out := .next (s.slotOp (.vrcp o) o (vecOne o 18 fpRcp))
/-- VRSQ (R177, 04 R98). -/
def execVrsq (o : Op) (s : State) : Out := .next (s.slotOp (.vrsq o) o (vecOne o 18 fpRsq))
/-- VEXP2 (R177, 04 R98). -/
def execVexp2 (o : Op) (s : State) : Out := .next (s.slotOp (.vexp2 o) o (vecOne o 10 fpExp2))
/-- VLOG2 (R177, 04 R98). -/
def execVlog2 (o : Op) (s : State) : Out := .next (s.slotOp (.vlog2 o) o (vecOne o 10 fpLog2))

/-- A form without a rounding (R178). -/
def vecMisc (o : Op) (f : Fmt → FVal → FVal → Nat → Nat → Arith RVal) : Slot Unit := do
  let a ← readVector o.w o.a
  let b ← readVector o.w o.b
  let fm := fmtOf o.w
  vecLanes o (vlat o 2) [a, b] fun i => f fm (laneVal fm o.w a i) (laneVal fm o.w b i) (a.lane o.w i) (b.lane o.w i)

/-- VMIN (R178). -/
def execVmin (o : Op) (s : State) : Out :=
  .next (s.slotOp (.vmin o) o (vecMisc o fun f x y _ _ => do exact f (← fpMinMax false x y)))
/-- VMAX (R178). -/
def execVmax (o : Op) (s : State) : Out :=
  .next (s.slotOp (.vmax o) o (vecMisc o fun f x y _ _ => do exact f (← fpMinMax true x y)))
/-- VSGN (R178). -/
def execVsgn (o : Op) (s : State) : Out := .next (s.slotOp (.vsgn o) o (vecMisc o fun f x y a b => signOp f x y a b))

/-- VCLASS (R178): an untagged integer in each lane. -/
def execVclass (o : Op) (s : State) : Out :=
  .next (s.slotOp (.vclass o) o (do
    let a ← readVector o.w o.a
    let m ← controlMask o.m75 o.w
    let fm := fmtOf o.w
    let l := (List.range (lanesOf o.w)).map fun i => ((fpClass fm (laneVal fm o.w a i) (a.lane o.w i), false) : Lane)
    writeLanes o (vlat o 2) o.w m l 0))

/-! ## Masks from lanes (R179) -/

/-- A mask result of outcomes: in 64-bit lane shape bits 63:32 become zero, untagged (R176). -/
def writeOutcomes (o : Op) (lat : Nat) (m : Word) (l : List (Bool × Option Origin)) : Slot Unit :=
  let v := BitVec.ofNat 64 (packBits (l.map fun x => x.1 && x.2.isNone)) &&& m
  let t := BitVec.ofNat 64 (packBits (l.map fun x => x.2.isSome)) &&& m
  let org := (mergePoison (((List.range l.length).zip l).map fun x => if m.getLsbD x.1 then x.2.2 else none)).getD 0
  writeMask o lat v t org (if o.w then m ||| 0xFFFF_FFFF_0000_0000 else m) 0

/-- Outcomes of the lanes that a mask selects, in ascending order. -/
def outcomes (sel : Word) (f : Nat → Arith (Bool × Option Origin)) : Nat → Nat → Arith (List (Bool × Option Origin))
  | 0, _ => pure []
  | n + 1, i => do
    let x ← if sel.getLsbD i then (do
        modify fun a => { a with lane := i }
        f i) else pure (false, none)
    let t ← outcomes sel f n (i + 1)
    return x :: t

/-- VCMP (R179). -/
def execVcmp (o : Op) (s : State) : Out :=
  .next (s.slotOp (.vcmp o) o (do
    let a ← readVector o.w o.a
    let b ← readVector o.w o.b
    let m ← controlMask o.m75 o.w
    let fm := fmtOf o.w
    let (l, _) ← runArith (opndOf [a]) 0
      (outcomes m (fun i => compareOp o.rm (laneVal fm o.w a i) (laneVal fm o.w b i)) (lanesOf o.w) 0)
    writeOutcomes o (vlat o 2) m l))

/-! ## Conversions (R183) -/

/-- How the elements of a conversion lie: lanes of 32 or 64 bits, 32-bit lanes of one half, 16-bit elements of one half. -/
inductive Lay where
  | w32 | w64 | h32 | e16
  deriving DecidableEq, Repr, Inhabited

/-- A conversion: source format and layout, result format and layout. -/
structure Conv where
  sf : Fmt
  sl : Lay
  tf : Fmt
  tl : Lay
  deriving DecidableEq, Repr, Inhabited

/-- The conversions of VCVT by code. -/
def convOf (code : Nat) : Conv :=
  let i64 := Fmt.int 7 64 true
  let n64 := Fmt.int 10 64 false
  let i32 := Fmt.int 6 32 true
  let n32 := Fmt.int 9 32 false
  match code with
  | 0 => ⟨.f64, .w64, .f32, .h32⟩
  | 1 => ⟨.f32, .h32, .f64, .w64⟩
  | 2 => ⟨.f32, .w32, .f16, .e16⟩
  | 3 => ⟨.f16, .e16, .f32, .w32⟩
  | 4 => ⟨.f32, .w32, .bf16, .e16⟩
  | 5 => ⟨.bf16, .e16, .f32, .w32⟩
  | 6 => ⟨i32, .w32, .f32, .w32⟩
  | 7 => ⟨n32, .w32, .f32, .w32⟩
  | 8 => ⟨.f32, .w32, i32, .w32⟩
  | 9 => ⟨.f32, .w32, n32, .w32⟩
  | 10 => ⟨i64, .w64, .f64, .w64⟩
  | 11 => ⟨n64, .w64, .f64, .w64⟩
  | 12 => ⟨.f64, .w64, i64, .w64⟩
  | 13 => ⟨.f64, .w64, n64, .w64⟩
  | 14 => ⟨i32, .h32, .f64, .w64⟩
  | _ => ⟨.f64, .w64, i32, .h32⟩

/-- The number of elements of a layout. -/
def Lay.count : Lay → Nat
  | .w32 | .e16 => 64
  | _ => 32

/-- Element j of a layout in half h as an operand: a 16-bit element is poison with its 32-bit element's tag (04 R87), and then with
the origin in that element's bits 14:0, whatever its own half encodes (log 113: DESIGN CHOICE). -/
def Lay.value (l : Lay) (f : Fmt) (x : VOp) (h j : Nat) : FVal :=
  match l with
  | .w32 => laneVal f false x j
  | .w64 => laneVal f true x j
  | .h32 => laneVal f false x (32 * h + j)
  | .e16 =>
    match x.org? false (32 * h + j / 2) with
    | some o => .poison o
    | none => decodeF f (x.lane false (32 * h + j / 2) / 2 ^ (16 * (j % 2)))

/-- The bit position, width, and 32-bit elements of element j of a result layout in half h, and its write-mask bit. -/
def Lay.place (l : Lay) (h j : Nat) : Nat × Nat × List Nat × Nat :=
  match l with
  | .w32 => (32 * j, 32, [j], j)
  | .w64 => (64 * j, 64, [2 * j, 2 * j + 1], j)
  | .h32 => (32 * (32 * h + j), 32, [32 * h + j], 32 * h + j)
  | .e16 => (1024 * h + 16 * j, 16, [32 * h + j / 2], j)

/-- Bits as a set of positions. -/
def bitsFrom (w : Nat) (l : List Nat) : BitVec w := l.foldl (fun a i => a ||| (1 <<< i)) 0

/-- VCVT (R183): a narrowing code writes the half of d that H names; codes 3 and 5 read a literal, constant or predicate source as 32-bit
lanes that each hold it (log 113: DEDUCED). -/
def execVcvt (o : Op) (s : State) : Out :=
  .next (s.slotOp (.vcvt o) o (do
    let cv := convOf (o.b &&& 0x1F).toNat
    let h := if o.b.getLsbD 7 then 1 else 0
    let a ← readVector (cv.sl == .w64) o.a
    let n := cv.sl.count
    let idx := (List.range n).map fun j => cv.tl.place h j
    let m ← readMask o.m75
    let consulted := bitsFrom 64 (idx.map (·.2.2.2))
    if m.tags &&& consulted ≠ 0 then trapWord 0x10 m.org
    let sel := bitsFrom 64 ((List.range n).filter fun j => m.v.getLsbD (cv.tl.place h j).2.2.2)
    let (l, fl) ← runArith (opndOf [a]) 0
      (forLanes sel (fun j => do return fpLane cv.tf (← roundTo cv.tf (cv.sl.value cv.sf a h j) o.rm o.sat)) n 0)
    let out := ((List.range n).zip (idx.zip l)).filter fun x => sel.getLsbD x.1
    let v : VBits := out.foldl (fun acc x => acc ||| (BitVec.ofNat 2048 (x.2.2.1 % 2 ^ x.2.1.2.1) <<< x.2.1.1)) 0
    let bytes := bitsFrom 256 (out.flatMap fun x => (List.range (x.2.1.2.1 / 8)).map (· + x.2.1.1 / 8))
    let els := out.flatMap (·.2.1.2.2.1)
    let tags := if cv.tl = .e16 then 0 else bitsFrom 64 ((out.filter (·.2.2.2)).flatMap (·.2.1.2.2.1))
    let wide := [0, 1, 10, 11, 12, 13, 14, 15].contains (o.b &&& 0x1F).toNat
    writeVector o (if wide then 6 else 4) v tags bytes (bitsFrom 64 els) fl))

/-! ## Quantisation (R184, R185) -/

/-- The narrow format of fmtK with a block scale; any other descriptor traps ILLEGAL (R184). -/
def quantFormat (o : Op) : Slot Fmt := do
  let d := (← curKern).fmtDesc o.b.toNat
  match Fmt.ofDesc d with
  | some f => if f.kind = 0 ∧ f.scaled then return f else trapWith 0x02 (d.setWidth 64) 0
  | none => trapWith 0x02 (d.setWidth 64) 0

/-- The elements of a quantised block, in lane order (04 R99 step 4). Under a zero scale an element keeps its sign: −0 is written
as the format's −0 where it has one, and takes its SR bits (log 96: DESIGN CHOICE). -/
def quantLanes (f : Fmt) (scale : Ex) (mode : Nat) (sat : Bool) : List FVal → Arith (List RVal)
  | [] => pure []
  | x :: t => do
    let y := match x with
      | .fin v => if scale.isZero then FVal.fin ⟨v.neg, 0, 0, false⟩ else if v.isZero then x else .fin (exDiv v scale)
      | z => z
    let r ← roundTo f y mode sat
    let rest ← quantLanes f scale mode sat t
    return r :: rest

/-- A block quantised to a narrow format: its S16 scale and its elements (04 R99). -/
def quantise (f : Fmt) (mode : Nat) (sat : Bool) (l : List FVal) : Arith (Nat × List Nat) := do
  match ← gather l with
  | some o => return (2 ^ 15 + o.toNat, l.map fun _ => 0)
  | none =>
    let a := maxMag l
    let scale := if a.isZero then 0 else quantScale f a
    let r ← quantLanes f (scaleEx scale) mode sat l
    match mergePoison (r.map fun x => match x with | .poison o => some o | .bits _ => none) with
    | some o => return (2 ^ 15 + o.toNat, l.map fun _ => 0)
    | none => return (scale, r.map fun x => match x with | .bits n => n | .poison _ => 0)

/-- Spread the elements of selected lanes over all lanes; the others are 0. -/
def spread (sel : Word) (l : List Nat) : Nat → Nat → List Nat
  | 0, _ => []
  | n + 1, i =>
    if sel.getLsbD i then l.headD 0 :: spread sel (l.drop 1) n (i + 1) else 0 :: spread sel l n (i + 1)

/-- VQNT (R184); of the checks of one step, the descriptor's comes before that of a tagged mask bit (log 100: DESIGN CHOICE). -/
def execVqnt (o : Op) (s : State) : Out :=
  .next (s.slotOp (.vqnt o) o (do
    let a ← readVector false o.a
    let mr ← readMask o.m75
    let f ← quantFormat o
    let sel ← maskBits mr false
    let xs := ((List.range 64).filter (sel.getLsbD ·)).map fun i => laneVal .f32 false a i
    let ((scale, el), fl) ← runArith (opndOf [a]) 0 (quantise f o.rm o.sat xs)
    let v := packNat f.w (spread sel el 64 0) + scale * 2 ^ 512
    writeVector o 8 (BitVec.ofNat 2048 v) 0 (BitVec.allOnes 256) (BitVec.allOnes 64) fl))

/-- VDQT (R185, 04 R100); the descriptor's check comes before that of a tagged mask bit (log 100: DESIGN CHOICE). -/
def execVdqt (o : Op) (s : State) : Out :=
  .next (s.slotOp (.vdqt o) o (do
    let a ← readVector false o.a
    let mr ← readMask o.m75
    let f ← quantFormat o
    let sel ← maskBits mr false
    let tag := mergePoison ((List.range 17).map fun i => a.org? false i)
    let (l, fl) ← runArith (opndOf [a]) 0 (do
      let scale ← (match tag with
        | some g => pure (.poison g)
        | none => if sel = 0 then pure .foreign else scaleVal (a.v.toNat / 2 ^ 512 % 2 ^ 16) : Arith FVal)
      forLanes sel (fun j => do
        let x ← scaledVal (decodeF f (a.v.toNat / 2 ^ (f.w * j))) scale
        return fpLane .f32 (← roundTo .f32 x o.rm o.sat)) 64 0)
    writeLanes o 4 false sel l fl))

/-! ## Across lanes (R186, 04 R97) -/

/-- A lane as an operand of a reduction. -/
def laneF (f : Fmt) (x : Lane) : FVal := if x.2 then .poison (BitVec.ofNat 15 x.1) else decodeF f x.1

/-- One combination of VRED and VSCAN: ADD, MAX, MIN, IADD. -/
def combine (o : Op) (x y : Lane) : Arith Lane := do
  let f := fmtOf o.w
  match o.b.toNat with
  | 0 => return fpLane f (← roundTo f (← fpAdd o.rm (laneF f x) (laneF f y)) o.rm o.sat)
  | 1 => return fpLane f (← exact f (← fpMinMax true (laneF f x) (laneF f y)))
  | 2 => return fpLane f (← exact f (← fpMinMax false (laneF f x) (laneF f y)))
  | _ =>
    match mergePoison [if x.2 then some (BitVec.ofNat 15 x.1) else none, if y.2 then some (BitVec.ofNat 15 y.1) else none] with
    | some g => return taggedLane o.w g
    | none => return ((x.1 + y.1) % 2 ^ laneWidth o.w, false)

/-- One level of the tree: an absent child passes the other on, unchanged to the last bit: a lone lane that is poison by its encoding
alone gets no tag, and a lone foreign NaN stays one (log 97: DEDUCED). -/
def treeLevel (o : Op) (width : Nat) : Nat → List (Option Lane) → Arith (List (Option Lane))
  | i, x :: y :: t => do
    let z ← (match x, y with
      | some a, some b => do
        modify fun s => { s with lane := i * width }
        return some (← combine o a b)
      | some a, none => pure (some a)
      | none, b => pure b : Arith (Option Lane))
    let r ← treeLevel o width (i + 1) t
    return z :: r
  | _, l => pure l

/-- The levels of the tree, from the lanes to the root. -/
def tree (o : Op) : Nat → Nat → List (Option Lane) → Arith (Option Lane)
  | 0, _, l => pure (l.headD none)
  | n + 1, width, l => do tree o n (2 * width) (← treeLevel o width 0 l)

/-- The first lane of a scan, which is a step too: its value rounded alone, or Tagged of its origin (04 R97, R88; log 97: DESIGN
CHOICE). -/
def lone (o : Op) (x : Lane) : Arith Lane := do
  let f := fmtOf o.w
  match o.b.toNat with
  | 0 => return fpLane f (← roundTo f (laneF f x) o.rm o.sat)
  | 1 | 2 => return fpLane f (← exact f (laneF f x))
  | _ => return if x.2 then taggedLane o.w (BitVec.ofNat 15 x.1) else x

/-- The inclusive scan over the selected lanes. -/
def scan (o : Op) : Nat → Option Lane → List (Option Lane) → Arith (List Lane)
  | _, _, [] => pure []
  | i, acc, none :: t => do return (0, false) :: (← scan o (i + 1) acc t)
  | i, acc, some x :: t => do
    modify fun s => { s with lane := i }
    let y ← (match acc with | none => lone o x | some a => combine o a x : Arith Lane)
    return y :: (← scan o (i + 1) (some y) t)

/-- The lanes of a register, absent where the mask excludes them. -/
def selectedLanes (w64 : Bool) (a : VOp) (sel : Word) : List (Option Lane) :=
  (List.range (lanesOf w64)).map fun i => if sel.getLsbD i then some (a.lane w64 i, a.tag w64 i) else none

/-- The latency of VRED and VSCAN: 10, or 12 under the binary64 rule. -/
def redLat (o : Op) : Nat := if o.w && o.b.toNat != 3 then 12 else 10

/-- VRED (R186): the root in every lane. A root that is one lone 64-bit lane with a tag on one half is written with both tags. -/
def execVred (o : Op) (s : State) : Out :=
  .next (s.slotOp (.vred o) o (do
    let a ← readVector o.w o.a
    let sel ← controlMask o.m75 o.w
    let (r, fl) ← runArith (opndOf [a]) 0 (tree o (if o.w then 5 else 6) 2 (selectedLanes o.w a sel))
    writeLanes o (redLat o) o.w (laneMask o.w) (List.replicate (lanesOf o.w) (r.getD (0, false))) fl))

/-- VSCAN (R186): the running combination in the selected lanes. -/
def execVscan (o : Op) (s : State) : Out :=
  .next (s.slotOp (.vscan o) o (do
    let a ← readVector o.w o.a
    let sel ← controlMask o.m75 o.w
    let (l, fl) ← runArith (opndOf [a]) 0 (scan o 0 none (selectedLanes o.w a sel))
    writeLanes o (redLat o) o.w sel l fl))

end Sys2Proof.Machine
end

