-- ==== Sys2Proof/Machine/VectorInt.lean ====
section
/-! DEFINITION. The integer and data-movement lane operations of the V slots (07 R180-R182, R187-R189, R194), the mask
operations (R190, R191) and the vector poison operations (R195). -/

namespace Sys2Proof.Machine

/-- Lanes written whole under the write mask, without a rounding. -/
def moveLanes (o : Op) (lat : Nat) (m : Word) (f : Nat → Lane) : Slot Unit :=
  writeLanes o lat o.w m ((List.range (lanesOf o.w)).map f) 0

/-! ## Integer lanes (R181, R182) -/

/-- An integer lane operation: Tagged of the merged origins where an operand is tagged, else f modulo 2^w. -/
def vecInt (o : Op) (lat : Nat) (f : Nat → Nat → Nat → Nat) : Slot Unit := do
  let a ← readVector o.w o.a
  let b ← readVector o.w o.b
  let m ← controlMask o.m75 o.w
  let w := laneWidth o.w
  moveLanes o lat m fun i =>
    match mergePoison [a.org? o.w i, b.org? o.w i] with
    | some g => taggedLane o.w g
    | none => (f w (a.lane o.w i) (b.lane o.w i) % 2 ^ w, false)

/-- N of VIMIN and VIMAX: natural. -/
def isNatural (o : Op) : Bool := o.m.getLsbD 1

/-- VIADD (R181). -/
def execViadd (o : Op) (s : State) : Out := .next (s.slotOp (.viadd o) o (vecInt o 2 fun _ a b => a + b))
/-- VISUB (R181). -/
def execVisub (o : Op) (s : State) : Out := .next (s.slotOp (.visub o) o (vecInt o 2 subN))
/-- VIMUL (R181). -/
def execVimul (o : Op) (s : State) : Out := .next (s.slotOp (.vimul o) o (vecInt o 4 fun _ a b => a * b))
/-- VAND (R181). -/
def execVand (o : Op) (s : State) : Out := .next (s.slotOp (.vand o) o (vecInt o 2 fun _ a b => a &&& b))
/-- VOR (R181). -/
def execVor (o : Op) (s : State) : Out := .next (s.slotOp (.vor o) o (vecInt o 2 fun _ a b => a ||| b))
/-- VXOR (R181). -/
def execVxor (o : Op) (s : State) : Out := .next (s.slotOp (.vxor o) o (vecInt o 2 fun _ a b => a ^^^ b))
/-- VSHL (R181). -/
def execVshl (o : Op) (s : State) : Out := .next (s.slotOp (.vshl o) o (vecInt o 2 fun w a b => a * 2 ^ (b % w)))
/-- VSHR (R181). -/
def execVshr (o : Op) (s : State) : Out := .next (s.slotOp (.vshr o) o (vecInt o 2 fun w a b => a / 2 ^ (b % w)))
/-- VSAR (R181). -/
def execVsar (o : Op) (s : State) : Out := .next (s.slotOp (.vsar o) o (vecInt o 2 sarN))
/-- VIMIN (R181). -/
def execVimin (o : Op) (s : State) : Out :=
  .next (s.slotOp (.vimin o) o (vecInt o 2 fun w a b => if isNatural o then Nat.min a b else minS w a b))
/-- VIMAX (R181). -/
def execVimax (o : Op) (s : State) : Out :=
  .next (s.slotOp (.vimax o) o (vecInt o 2 fun w a b => if isNatural o then Nat.max a b else maxS w a b))

/-- VICMP (R182). -/
def execVicmp (o : Op) (s : State) : Out :=
  .next (s.slotOp (.vicmp o) o (do
    let a ← readVector o.w o.a
    let b ← readVector o.w o.b
    let m ← controlMask o.m75 o.w
    writeOutcomes o 2 m ((List.range (lanesOf o.w)).map fun i =>
      (intCond o.m41 (laneWidth o.w) (a.lane o.w i) (b.lane o.w i), mergePoison [a.org? o.w i, b.org? o.w i]))))

/-! ## Data movement (R180, R187-R189, R194) -/

/-- A register's lanes as 32-bit elements with their own tags, so that a 64-bit lane carries both tags unchanged. -/
def VOp.pick (x : VOp) (w64 : Bool) (i : Nat) : List (Nat × Bool) :=
  if w64 then [(x.lane false (2 * i), x.tags.getLsbD (2 * i)), (x.lane false (2 * i + 1), x.tags.getLsbD (2 * i + 1))]
  else [(x.lane false i, x.tags.getLsbD i)]

/-- A lane of a scalar: its elements with their tags. -/
def SVal.pick (x : SVal) (w64 : Bool) : List (Nat × Bool) :=
  if w64 then [(x.v.toNat % 2 ^ 32, x.tl), (x.v.toNat / 2 ^ 32, x.th)] else [(x.v.toNat % 2 ^ 32, x.tl)]

/-- Lanes given as elements with their tags, written under the write mask. -/
def moveElements (o : Op) (lat : Nat) (m : Word) (f : Nat → List (Nat × Bool)) : Slot Unit :=
  let r := packLanes false ((List.range (lanesOf o.w)).flatMap f)
  writeVector o lat r.v r.tags (laneBytes o.w m) (laneTags o.w m) 0

/-- VSEL (R180). -/
def execVsel (o : Op) (s : State) : Out :=
  .next (s.slotOp (.vsel o) o (do
    let a ← readVector o.w o.a
    let b ← readVector o.w o.b
    let m ← controlMask o.m75 o.w
    moveElements o 2 (laneMask o.w) fun i => if m.getLsbD i then a.pick o.w i else b.pick o.w i))

/-- VMOV (R194). -/
def execVmov (o : Op) (s : State) : Out :=
  .next (s.slotOp (.vmov o) o (do
    let a ← readVector o.w o.a
    let m ← controlMask o.m75 o.w
    moveElements o 2 m (a.pick o.w)))

/-- VBCAST (R188). -/
def execVbcast (o : Op) (s : State) : Out :=
  .next (s.slotOp (.vbcast o) o (do
    let a ← readScalar o.a
    let m ← controlMask o.m75 o.w
    moveElements o 2 m fun _ => a.pick o.w))

/-- VPERM (R187). -/
def execVperm (o : Op) (s : State) : Out :=
  .next (s.slotOp (.vperm o) o (do
    let a ← readVector o.w o.a
    let b ← readVector o.w o.b
    let m ← controlMask o.m75 o.w
    moveElements o 3 m fun i =>
      match b.org? o.w i with
      | some g => if o.w then [(g.toNat, true), (g.toNat, true)] else [(g.toNat, true)]
      | none => a.pick o.w (b.lane o.w i % lanesOf o.w)))


/-- VEXT (R189): a tagged n traps before a tagged bit of the write mask. -/
def execVext (o : Op) (s : State) : Out :=
  .next (s.slotOp (.vext o) o (do
    let a ← readVector o.w o.a
    let n ← readScalar o.b
    let mr ← readMask o.m75
    if n.tagged then trapWord 0x11 n.origin
    let m ← maskBits mr o.w
    moveElements o 3 m fun i => a.pick o.w ((i + n.v.toNat) % lanesOf o.w)))

/-- VINS (R189): d is written whole. -/
def execVins (o : Op) (s : State) : Out :=
  .next (s.slotOp (.vins o) o (do
    let v ← readScalar o.a
    let n ← readScalar o.b
    let d ← readVDest o
    if n.tagged then trapWord 0x11 n.origin
    moveElements o 3 (laneMask o.w) fun i => if i = n.v.toNat % lanesOf o.w then v.pick o.w else d.pick o.w i))

/-! ## Mask operations (R190, R191) -/

/-- MLOG (R190). -/
def execMlog (o : Op) (s : State) : Out :=
  .next (s.slotOp (.mlog o) o (do
    let x ← readMask o.a.toNat
    let y ← (if o.m41 < 8 then readMask o.b.toNat else return MaskReg.zero)
    let t := x.tags ||| y.tags
    let v := BitVec.ofNat 64 (packBits ((List.range 64).map fun i => logicFn o.m41 (x.v.getLsbD i) (y.v.getLsbD i)))
    let org := (mergePoison [if x.tags = 0 then none else some x.org, if y.tags = 0 then none else some y.org]).getD 0
    writeMask o 1 (v &&& ~~~t) t org (BitVec.allOnes 64) 0))

/-- The lowest set bit of a mask below n, counting from i; n + i where none is set. -/
def lowestBit (v : Word) : Nat → Nat → Nat
  | 0, i => i
  | n + 1, i => if v.getLsbD i then i else lowestBit v n (i + 1)

/-- A count of two masks ANDed, written into every 32-bit element; `deps` are the bits the count depends on. -/
def maskCount (o : Op) (count : Word → Nat) (deps : Word → Word) : Slot Unit := do
  let x ← readMask o.a.toNat
  let y ← readMask o.b.toNat
  let m ← controlMask o.m75 false
  let v := x.v &&& y.v
  let d := deps v
  let l : Lane := match mergePoison [if x.tags &&& d = 0 then none else some x.org, if y.tags &&& d = 0 then none else some y.org] with
    | some g => taggedLane false g
    | none => (count v, false)
  writeLanes o 1 false m (List.replicate 64 l) 0

/-- MPOP (R191). -/
def execMpop (o : Op) (s : State) : Out :=
  .next (s.slotOp (.mpop o) o (maskCount o (fun v => popcount 64 v.toNat) fun _ => BitVec.allOnes 64))

/-- MFIRST (R191). -/
def execMfirst (o : Op) (s : State) : Out :=
  .next (s.slotOp (.mfirst o) o (maskCount o (fun v => lowestBit v 64 0) fun v =>
    let n := lowestBit v 64 0
    BitVec.ofNat 64 (2 ^ (n + 1) - 1)))

/-! ## Vector poison operations (R195) -/

/-- The origin of each selected lane that is poison under the type. -/
def lanePoisons (o : Op) (a : VOp) (m : Word) : List (Option Origin) :=
  let w := poisonWide o
  (List.range (lanesOf w)).map fun i =>
    if m.getLsbD i then poisonOrigin (poisonType o) (a.lane w i) (a.tag w i) else none

/-- VPTEST (R195). -/
def execVptest (o : Op) (s : State) : Out :=
  .next (s.slotOp (.vptest o) o (do
    let a ← readVector (poisonWide o) o.a
    let m ← controlMask o.m75 (poisonWide o)
    let v := BitVec.ofNat 64 (packBits ((lanePoisons o a m).map (·.isSome)))
    writeMask o 2 v 0 0 (if poisonWide o then m ||| 0xFFFF_FFFF_0000_0000 else m) 0))

/-- VPCHK (R195). -/
def execVpchk (o : Op) (s : State) : Out :=
  .next (s.slotOp (.vpchk o) o (do
    let a ← readVector (poisonWide o) o.a
    let m ← controlMask o.m75 (poisonWide o)
    let l := lanePoisons o a m
    match findAt (·.isSome) 0 l with
    | none => return
    | some (i, _) => trapWith 0x13 (wordOf i) ((mergePoison l).getD 0)))

/-- VPSAN (R195). -/
def execVpsan (o : Op) (s : State) : Out :=
  .next (s.slotOp (.vpsan o) o (do
    let w := poisonWide o
    let a ← readVector w o.a
    let b ← readVector w o.b
    let m ← controlMask o.m75 w
    let l := lanePoisons o a m
    sanitise (l.filter (·.isSome)).length
    let r := packLanes w ((List.range (lanesOf w)).map fun i =>
      if (l.getD i none).isSome then ((b.lane w i, false) : Lane) else (a.lane w i, false))
    writeVector o 2 r.v r.tags (laneBytes w m) (laneTags w m) 0))

end Sys2Proof.Machine
end

