-- ==== Sys2Proof/Machine/Streams.lean ====
section
/-! DEFINITION. Stream generators (08 R215-R218, R223, R224), owner regions as they change hands (R212, R213, R225), the
vector slots' reads and writes of AB streams and of XS (07 R192, R193). -/

namespace Sys2Proof.Machine

/-! ## The nest of a pattern (R215, R216) -/

/-- CNTn + 1. -/
def Stream.cnt (x : Stream) (n : Nat) : Nat := bitsOf (entWord x.rec_ 1) (16 * n + 15) (16 * n) + 1
/-- STRn. -/
def Stream.str (x : Stream) (n : Nat) : Int :=
  signExt 32 (bitsOf (entWord x.rec_ (2 + n / 2)) (32 * (n % 2) + 31) (32 * (n % 2)))
/-- START. -/
def Stream.startOff (x : Stream) : Int := signExt 32 (bitsOf (entWord x.rec_ 0) 63 32)
/-- DIR: a store pattern. -/
def Stream.isStore (x : Stream) : Bool := bitsOf (entWord x.rec_ 0) 8 8 == 1
/-- Bytes of an element. -/
def Stream.bytes (x : Stream) : Nat := x.tens.format.w / 8
/-- The number of nest elements. -/
def Stream.total (x : Stream) : Nat := x.cnt 0 * x.cnt 1 * x.cnt 2 * x.cnt 3
/-- The number of pops. -/
def Stream.npops (x : Stream) : Nat := ceilDiv (x.total * x.bytes) 256

/-- The elements of a pop. -/
def Stream.elems (x : Stream) (p : Nat) : List Nat :=
  ((List.range (256 / x.bytes)).map (· + p * (256 / x.bytes))).filter fun n => decide (n < x.total)

/-- i3 of a nest element. -/
def Stream.i3 (x : Stream) (n : Nat) : Nat := n / (x.cnt 0 * x.cnt 1 * x.cnt 2)

/-- The bit address of the index element of a nest element, where level 3 is indirect. -/
def Stream.indexBit (x : Stream) (n : Nat) : Option Nat := x.itens.map fun t => t.bitAddr (t.offset (x.i3 n) 0 0 0)

/-- The byte address of a nest element, or the origin of a poisoned index (R216, R218). -/
def Kern.elemAddr (k : Kern) (x : Stream) (n : Nat) : Except Origin Int :=
  let e := x.startOff + (n % x.cnt 0 : Nat) * x.str 0 + (n / x.cnt 0 % x.cnt 1 : Nat) * x.str 1
    + (n / (x.cnt 0 * x.cnt 1) % x.cnt 2 : Nat) * x.str 2
  let at_ := fun (e : Int) => (x.tens.fields.base : Int) + e * x.bytes
  match x.indexBit n with
  | none => .ok (at_ (e + (x.i3 n : Nat) * x.str 3))
  | some bit =>
    match k.ab.element bit 32 with
    | (_, some o) => .error o
    | (v, none) => .ok (at_ (e + (v : Nat)))

/-- An element's address within the AB allotment, or the trap that its consumer takes (R218). -/
def Kern.elemPlace (k : Kern) (x : Stream) (n : Nat) : EPlace :=
  match k.elemAddr x n with
  | .error o => .trap 0x11 0 o
  | .ok a => if a < 0 ∨ (k.limit .ab : Int) < a + x.bytes then .trap 0x02 (BitVec.ofInt 64 a) 0 else .at_ a.toNat

/-- The address, if there is one. -/
def EPlace.addr? (p : EPlace) : Option Nat := match p with | .at_ a => some a | .trap _ _ _ => none

/-- The trap, if there is one. -/
def EPlace.trap? (p : EPlace) : Option (Nat × Word × Origin) := match p with | .at_ _ => none | .trap c v o => some (c, v, o)

/-- The next pop to fetch. -/
def Stream.next (x : Stream) : Nat := x.pos + x.pops.length

/-- Where the elements of pop p lie: as they were fetched, as their index elements were read, or as AB gives them now. -/
def Kern.popPlaces (k : Kern) (x : Stream) (p : Nat) : List EPlace :=
  match x.pops.find? fun q => q.n == p with
  | some q => q.places
  | none =>
    match x.ahead with
    | some (_, l) => if p = x.next then l else (x.elems p).map (k.elemPlace x)
    | none => (x.elems p).map (k.elemPlace x)

/-- The first trap among a pop's elements. -/
def Kern.popFault (k : Kern) (x : Stream) (p : Nat) : Option (Nat × Word × Origin) := (k.popPlaces x p).findSome? EPlace.trap?

/-- The first byte of elements in a region that an engine owns. -/
def Kern.placesOwned (k : Kern) (x : Stream) (l : List EPlace) : Option Nat :=
  (l.filterMap EPlace.addr?).findSome? fun a => k.ownedByte .ab a (a + x.bytes - 1) 0

/-- Of addresses, the one that comes first in a pop: in the first element that has one of them. -/
def Stream.firstByte (x : Stream) (l : List EPlace) (c : List Nat) : Option Nat :=
  (l.filterMap EPlace.addr?).findSome? fun a => (c.filter fun b => decide (a ≤ b) && decide (b < a + x.bytes)).min?

/-- The first byte of a pop in a region that an engine owns. -/
def Kern.popOwned (k : Kern) (x : Stream) (p : Nat) : Option Nat := k.placesOwned x (k.popPlaces x p)

/-- The first byte of a pop's index elements that is still to be read and lies in a unit that is not AWAKE (R204). -/
def Kern.indexCold (k : Kern) (x : Stream) (p : Nat) : Option Nat :=
  if (x.pops.any fun q => q.n == p) || (x.ahead.isSome && p == x.next) then none
  else (x.elems p).findSome? fun n => (x.indexBit n).bind fun b => k.coldByte .ab (b / 8) (b / 8 + 3)

/-- The first byte of a pop in a unit that is not AWAKE. -/
def Kern.popCold (k : Kern) (x : Stream) (p : Nat) : Option Nat :=
  ((k.popPlaces x p).filterMap EPlace.addr?).findSome? fun a => k.coldByte .ab a (a + x.bytes - 1)

/-! ## Fetching (R217) -/

/-- F(n) of the next pop, as far as the pattern and the pops so far decide it; none where the generator holds 4. -/
def Stream.fetchAt (x : Stream) : Option Nat :=
  let n := x.next
  if x.isStore || 4 ≤ x.pops.length || x.npops ≤ n then none
  else
    let late := if x.itens.isSome then 2 else 0
    let v := if n < 4 then 0 else x.vtimes.getD (3 - x.pops.length) 0 + 1
    let prev := match x.pops.getLast? with | some p => p.at_ + 1 | none => 0
    some (max (max (x.start + 3 + n) v + late) prev)

/-- Two accesses of one cycle meet in a bank: different lines of it (R199). -/
def bankConflict (a b : List Nat) : Bool :=
  a.any fun x => b.any fun y => x / 64 != y / 64 && x / 64 % 32 == y / 64 % 32

/-- The AB addresses accessed in this cycle ahead of stream st: VST pushes, and fetches of lower streams (R199). -/
def Kern.abBefore (k : Kern) (st : Nat) : List Nat :=
  (k.dw.filter fun d => d.kind == .stream && d.due == k.cyc + 1).flatMap (fun d => d.writes.map (·.addr))
    ++ (k.streams.filter fun e => decide (e.1 < st)).flatMap fun e =>
      match e.2.pops.getLast? with
      | some p => if p.at_ = k.cyc then p.places.filterMap EPlace.addr? else []
      | none => []

/-- Stream st reads the index elements of its next pop in this cycle, the one before F(n) (R217). -/
def Kern.indexDue (k : Kern) (st : Nat) : Bool :=
  match Tab.get? k.streams st with
  | none => false
  | some x =>
    match x.fetchAt with
    | none => false
    | some t => x.itens.isSome && x.ahead.isNone && decide (t ≤ k.cyc + 1) && (k.indexCold x x.next).isNone

/-- Stream st fetches its next pop in this cycle. -/
def Kern.fetchDue (k : Kern) (st : Nat) : Bool :=
  match Tab.get? k.streams st with
  | none => false
  | some x =>
    match x.fetchAt with
    | none => false
    | some t => decide (t ≤ k.cyc) && (match x.ahead with | some a => decide (a.1 < k.cyc) | none => x.itens.isNone)
      && (k.popCold x x.next).isNone
      && !bankConflict ((k.popPlaces x x.next).filterMap EPlace.addr?) (k.abBefore st)

/-- The 256 bytes of a pop as a register: bytes beyond the last element are zero; elements of marked sectors are
Tagged of their origins, merged per 32-bit element (07 R192). -/
def Kern.popData (k : Kern) (x : Stream) (p : Nat) : VReg :=
  let parts := ((x.elems p).zip (k.popPlaces x p)).map fun e =>
    match e.2 with
    | .at_ a => (e.1 * x.bytes % 256, k.ab.element (8 * a) (8 * x.bytes))
    | .trap _ _ _ => (e.1 * x.bytes % 256, (0, none))
  let raw := parts.foldl (fun acc q => acc + q.2.1 * 2 ^ (8 * q.1)) 0
  let tag := fun i => mergePoison ((parts.filter fun q => decide (q.1 < 4 * i + 4) && decide (4 * i < q.1 + x.bytes)).map (·.2.2))
  let v := packNat 32 ((List.range 64).map fun i => match tag i with | some o => o.toNat | none => raw / 2 ^ (32 * i))
  let t := packBits ((List.range 64).map fun i => (tag i).isSome)
  ⟨BitVec.ofNat 2048 v, BitVec.ofNat 64 t, BitVec.ofNat 2048 v⟩

/-- The ranges of a pop's index elements. -/
def Stream.indexRanges (x : Stream) (p : Nat) : List (Nat × Nat) := ((x.elems p).filterMap x.indexBit).map fun b => (b / 8, 4)

/-- Who takes the origins of a generator's reads: the VLD in whose slot it fetches, else its SPAT or SRST, one of a kind for all its
fetches (14 R365; 04 R94). -/
def State.fetchTaker (s : State) (k st : Nat) : Taker :=
  if s.issue.active ∧ s.issue.kid = k then s.slotTaker else .stream k st

/-- The generator reads the index elements of its next pop, where level 3 is indirect and they are still to be read: uncorrectable
words are consumed first (R200, R217). -/
def State.readIndex (s : State) (k st : Nat) : State :=
  match Tab.get? (s.kern k).streams st with
  | none => s
  | some x =>
    if x.itens.isNone || x.ahead.isSome then s
    else
      let s := s.consumeRanges k (s.fetchTaker k st) .ab (x.indexRanges x.next)
      let y := s.kern k
      s.modKern k fun y' => { y' with
        streams := Tab.set y'.streams st { (Tab.get? y.streams st).getD x with ahead := some (y.cyc, y.popPlaces x x.next) } }

/-- The generator fetches its next pop: uncorrectable words are consumed, then the bytes stand as they are (R200, R217). -/
def State.fetchPop (s : State) (k st : Nat) : State :=
  let s := s.readIndex k st
  match Tab.get? (s.kern k).streams st with
  | none => s
  | some x =>
    let p := x.next
    let l := (s.kern k).popPlaces x p
    let s := s.consumeRanges k (s.fetchTaker k st) .ab ((l.filterMap EPlace.addr?).map fun a => (a, x.bytes))
    let y := s.kern k
    let pop : Pop := ⟨p, y.cyc, y.popData x p, l, y.placesOwned x l⟩
    s.modKern k fun y' => { y' with
      streams := Tab.set y'.streams st { (Tab.get? y.streams st).getD x with pops := x.pops ++ [pop], ahead := none } }

/-! ## Regions changing hands (R212, R213) -/

/-- A pop already fetched, with the first of its bytes noted that an engine owns now or has owned since the fetch (07 R192). -/
def Kern.notePop (k : Kern) (x : Stream) (p : Pop) : Pop :=
  { p with owner := x.firstByte p.places (p.owner.toList ++ (k.placesOwned x p.places).toList) }

/-- Regions of CORE become owned by engine e; pops already fetched from them are noted. -/
def Kern.giveRegions (k : Kern) (e : Nat) (keys : List Nat) : Kern :=
  let k := { k with own := keys.foldl (fun t key => if Tab.get 0 t key = 0 then Tab.set t key (e + 1) else t) k.own }
  { k with streams := k.streams.map fun s => (s.1, { s.2 with pops := s.2.pops.map (k.notePop s.2) }) }

/-- Regions return to CORE. -/
def Kern.takeRegions (k : Kern) (keys : List Nat) : Kern :=
  { k with own := keys.foldl (fun t key => t.erase key) k.own }

/-! ## VLD and VST (07 R192) -/

/-- A stream generator with a pattern and elements left, of the direction named (R192). -/
def streamOf (st : Nat) (store : Bool) : Slot Stream := do
  let k ← curKern
  match Tab.get? k.streams st with
  | none => illegal
  | some x =>
    if x.isStore != store || x.npops ≤ x.pos then illegal
    return x

/-- A trap found at an element. -/
def elemTrap (f : Nat × Word × Origin) : Slot Unit :=
  if f.1 = 0x11 then trapWord f.1 f.2.2 else trapWith f.1 f.2.1 f.2.2

/-- A trap at the first address found, if there is one. -/
def trapAt (cause : Nat) (a : Option Nat) : Slot Unit := match a with | some a => trapWith cause (wordOf a) 0 | none => pure ()

/-- VLD (R192, R218): its elements' own traps come before OWNER and COLD-BANK; a generator that cannot load is ILLEGAL before all of
these (log 100: DESIGN CHOICE). -/
def execVld (o : Op) (s : State) : Out :=
  .next (s.slotOp (.vld o) o (do
    let st := o.a.toNat
    let mr ← readMask o.m75
    let x ← streamOf st false
    let m ← maskBits mr false
    trapAt 0x07 ((← curKern).indexCold x x.pos)
    if x.pops.isEmpty && ((← curKern).popCold x x.pos).isNone then modify fun s => s.fetchPop s.issue.kid st
    let k ← curKern
    let x := (Tab.get? k.streams st).getD x
    match k.popFault x x.pos with
    | some f => elemTrap f
    | none => pure ()
    trapAt 0x05 (match x.pops.head? with | some p => (k.notePop x p).owner | none => k.popOwned x x.pos)
    trapAt 0x07 (k.popCold x x.pos)
    match x.pops with
    | [] => illegal
    | p :: rest =>
      let x' := { x with pops := rest, pos := x.pos + 1, vtimes := k.cyc :: x.vtimes.take 3 }
      modCur fun y => { y with streams := Tab.set y.streams st x' }
      writeVector o 3 p.r.v p.r.tags (laneBytes false m) m 0))

/-- The pieces of a pushed pop: address, bytes or a mark, 4 bytes at most, under the mask (R192). -/
def Kern.pushWrites (k : Kern) (x : Stream) (p : Nat) (a : VOp) (m : Word) : List BWrite :=
  (x.elems p).flatMap fun n =>
    match k.elemPlace x n with
    | .trap _ _ _ => []
    | .at_ ad =>
      let off := n * x.bytes % 256
      let w := min x.bytes 4
      ((List.range (x.bytes / w)).filter fun j => m.getLsbD ((off + 4 * j) / 4)).map fun j =>
        let lane := (off + 4 * j) / 4
        if a.tags.getLsbD lane then ⟨.ab, ad + 4 * j, [], some (BitVec.ofNat 15 (a.lane false lane))⟩
        else ⟨.ab, ad + 4 * j, leBytes w (a.v.toNat / 2 ^ (8 * (off + 4 * j))), none⟩

/-- VST (R192, R217, R218); the order of its checks and TVAL of OWNER are the model's choice (log 100, log 121). -/
def execVst (o : Op) (s : State) : Out :=
  .next (s.slotOp (.vst o) o (do
    let a ← readVector false o.a
    let mr ← readMask o.m75
    let st := o.b.toNat
    let x ← streamOf st true
    let m ← maskBits mr false
    setOpnd a.v.toNat
    trapAt 0x07 ((← curKern).indexCold x x.pos)
    touchRanges .ab (x.indexRanges x.pos)
    let k ← curKern
    match k.popFault x x.pos with
    | some f => elemTrap f
    | none => pure ()
    let ws := k.pushWrites x x.pos a m
    let w := min x.bytes 4
    trapAt 0x05 (ws.findSome? fun b => k.ownedByte .ab b.addr (b.addr + w - 1) 0)
    trapAt 0x07 (ws.findSome? fun b => k.coldByte .ab b.addr (b.addr + w - 1))
    for b in ws do logWrite .ab b.addr w
    modCur fun y => { y with streams := Tab.set y.streams st { x with pos := x.pos + 1 } }
    delayWrites 3 .stream ws))

/-! ## ACCRD and ACCWR (07 R193) -/

/-- The XS byte address of four slots, with the checks of R193 in their order, and then COLD-BANK (R204). TVAL is the slot
number for ALIGN and the byte address for OWNER (log 121: DESIGN CHOICE). -/
def xsAddress (x : SVal) : Slot Nat := do
  if x.tagged then trapWord 0x11 x.origin
  if x.v.toNat % 4 ≠ 0 then trapWith 0x09 x.v 0
  if (← curKern).limit .xs ≤ 64 * x.v.toNat then illegal
  let a := 64 * x.v.toNat
  checkOwner .xs a (a + 255)
  checkAwake .xs a (a + 255)
  return a

/-- Writes applied to a buffer's contents. -/
def Buf.apply (x : Buf) (b : BufId) (ws : List BWrite) (bits : List (Nat × Byte × Byte)) : Buf :=
  let mine := ws.filter fun w => w.buf == b
  let y := (x.write ((mine.filter fun w => w.mark.isNone).map fun w => (w.addr, w.bytes))).writeBits (if b = .ab then bits else [])
  let marks := mine.filterMap fun w => w.mark.map fun o => (w.addr / 32, o)
  (dedup (marks.map (·.1))).foldl (fun y sec =>
    y.mark sec ((mergePoison ((marks.filter fun m => m.1 == sec).map fun m => some m.2)).getD 0)) y

/-- Insert by due cycle, after equals. -/
def insertWrite (d : DWrite) : List DWrite → List DWrite
  | [] => [d]
  | e :: t => if d.due < e.due then d :: e :: t else e :: insertWrite d t

/-- A buffer with the delayed writes that pass a test, in the order in which they take effect. -/
def Kern.bufWith (k : Kern) (b : BufId) (p : DWrite → Bool) : Buf :=
  ((k.dw.filter p).foldl (fun l d => insertWrite d l) []).foldl (fun x d => x.apply b d.writes d.bits) (k.buf b)

/-- A buffer as it stands at the start of a later core cycle. -/
def Kern.bufAt (k : Kern) (b : BufId) (cyc : Nat) : Buf := k.bufWith b fun d => decide (d.due ≤ cyc)

/-- A buffer as every earlier write leaves it (10 R277). -/
def Kern.bufLast (k : Kern) (b : BufId) : Buf := k.bufWith b fun _ => true

/-- 256 bytes of 32-bit elements: those of a marked sector are Tagged of its origin (04 R93). -/
def Buf.elements256 (x : Buf) (a : Nat) : VOp :=
  packLanes false ((List.range 64).map fun i =>
    match x.markAt (a + 4 * i) with
    | some o => taggedLane false o
    | none => (leNat (x.mem.read (a + 4 * i) 4), false))

/-- ACCRD (R193): XS as it stands at the start of the cycle after the issue. -/
def execAccrd (o : Op) (s : State) : Out :=
  .next (s.slotOp (.accrd o) o (do
    let x ← readScalar o.a
    let mr ← readMask o.m75
    let a ← xsAddress x
    let m ← maskBits mr false
    setOpnd x.v.toNat
    touchBuf .xs a 256
    let k ← curKern
    let r := (k.bufAt .xs (k.cyc + 1)).elements256 a
    writeVector o 5 r.v r.tags (laneBytes false m) m 0))

/-- ACCWR (R193): XS is written at the end of the cycle after the issue. -/
def execAccwr (o : Op) (s : State) : Out :=
  .next (s.slotOp (.accwr o) o (do
    let v ← readVector false o.a
    let x ← readScalar o.b
    let mr ← readMask o.m75
    let a ← xsAddress x
    let m ← maskBits mr false
    setOpnd v.v.toNat
    logWrite .xs a 256
    delayWrites 2 .buffer (elementWrites .xs v m fun i => a + 4 * i)))

end Sys2Proof.Machine
end

