-- ==== Sys2Proof/Machine/TensorOps.lean ====
section
/-! DEFINITION. The E-slot operations over tensors, formats, streams, owners and unit power (08 R219-R226), BWPH (09 R240)
and the exchange network (06 R156-R160). -/

namespace Sys2Proof.Machine

/-! ## Tensor entries and formats (R220-R222) -/

/-- The 64-byte record in a vector register; a tag on one of its elements traps POISON-BRANCH (R220, R223). -/
def readRecord (sel : BitVec 8) : Slot (BitVec 512) := do
  let v ← readVector false sel
  match mergePoison ((List.range 16).map fun i => v.org? false i) with
  | some g => trapWord 0x10 g
  | none => return v.v.setWidth 512

/-- TDEF (R220). An entry with V = 0 replaces word 0 alone (R221). -/
def execTdef (o : Op) (s : State) : Out :=
  .next (s.slotOp (.tdef o) o (do
    let w ← readRecord o.a
    let n := o.m.toNat
    let old := (← curKern).entry n
    let e := entOf w
    if e.valid then
      if e.malformed then illegal
      let clean := w &&& ~~~((0xF : BitVec 512) <<< 384)
      modCur fun k => { k with tdt := Tab.put 0 k.tdt n clean }
    else modCur fun k => { k with tdt := Tab.put 0 k.tdt n (old.extractLsb' 64 448 ++ w.extractLsb' 0 64) }))

/-- OWNER of an entry (R214). -/
def Kern.entryOwner (k : Kern) (n : Nat) : Nat :=
  let e := entOf (k.entry n)
  if e.valid then
    match dedup (((k.entryKeys n).map fun key => Tab.get 0 k.own key).filter (· != 0)) with
    | [] => 0
    | [x] => x
    | _ => 0xF
  else 0

/-- TRD (R221). -/
def execTrd (o : Op) (s : State) : Out :=
  .next (s.slotOp (.trd o) o (do
    let w ← readScalar o.a
    let n := o.m.toNat
    if w.tagged then trapWord 0x11 w.origin
    if 7 < w.v.toNat then illegal
    let k ← curKern
    let x := entWord (k.entry n) w.v.toNat
    writeScalar o 2 (.plain (wordOf (if w.v.toNat = 6 then x + k.entryOwner n else x))) 0))

/-- FMTSET (R222). -/
def execFmtset (o : Op) (s : State) : Out :=
  .next (s.slotOp (.fmtset o) o (do
    let a ← readScalar o.a
    if a.tagged then trapWord 0x10 a.origin
    if a.v.toNat / 2 ^ 32 ≠ 0 then illegal
    if (Fmt.ofDesc (a.v.setWidth 32)).isNone then trapWith 0x02 a.v 0
    modCur fun k => { k with fmts := Tab.put 0x0020_0000 k.fmts o.m.toNat (a.v.setWidth 32) }))

/-! ## Streams (R223, R224) -/

/-- The record breaks R215 or R223. -/
def Kern.recordBad (k : Kern) (r : BitVec 512) : Bool :=
  let w := entWord r
  let ind := bitsOf (w 0) 9 9 == 1
  let n := bitsOf (w 0) 7 0
  let it := bitsOf (w 0) 23 16
  let e := entOf (k.entry n)
  let f := (Fmt.ofDesc (k.fmtDesc e.fmt)).getD .f32
  bitsOf (w 0) 31 24 != 0 || bitsOf (w 0) 15 10 != 0 || w 4 != 0 || w 5 != 0 || w 6 != 0 || w 7 != 0
    || (!ind && it != 0) || (ind && bitsOf (w 3) 63 32 != 0)
    || !k.tensorOk n || e.buf != .ab || !([8, 16, 32, 64].contains f.w)
    || (ind && (let x := entOf (k.entry it)
        !k.tensorOk it || x.layout != 4 || x.buf != .ab || decide (x.sz 0 < bitsOf (w 1) 63 48 + 1)))

/-- What the general rules name as TVAL for the tensors of a record that SPAT may not use (04 R75, R198, R209). -/
def Kern.recordVals (k : Kern) (r : BitVec 512) : List Nat :=
  let w := entWord r 0
  k.tensorVals (bitsOf w 7 0) [.ab] ++ (if bitsOf w 9 9 == 1 then k.tensorVals (bitsOf w 23 16) [.ab] else [])

/-- The stream index (R219). -/
def streamIndex (o : Op) : Nat := (o.m.extractLsb' 0 3).toNat

/-- SPAT (R223). -/
def execSpat (o : Op) (s : State) : Out :=
  .next (s.slotOp (.spat o) o (do
    let r ← readRecord o.a
    let st := streamIndex o
    let k ← curKern
    if k.recordBad r then trapWith 0x02 (tensorTval ((← get).slotWord.toNat :: k.recordVals r)) 0
    let w := entWord r 0
    let s ← get
    let x : Stream := ⟨r, (k.capture (bitsOf w 7 0)).headD default,
      if bitsOf w 9 9 = 1 then (k.capture (bitsOf w 23 16)).head? else none, k.cyc, 0, [], [], none,
      s.issue.addr.toNat + s.issue.slot * 2 ^ 11, s.slotWord.toNat, r.toNat % 2 ^ 128, []⟩
    modCur fun k => { k with streams := Tab.set k.streams st x }))

/-- SRST (R224). -/
def execSrst (o : Op) (s : State) : Out :=
  .next (s.slotOp (.srst o) o (do
    let st := streamIndex o
    let s ← get
    match Tab.get? (← curKern).streams st with
    | none => illegal
    | some x => modCur fun k => { k with streams := Tab.set k.streams st { x with
        start := k.cyc, pos := 0, vtimes := [], pops := [], ahead := none
        loc := s.issue.addr.toNat + s.issue.slot * 2 ^ 11, insn := s.slotWord.toNat, opnd := 0, made := [] } }))

/-- SRST.CLR (R224). -/
def execSrstClr (o : Op) (s : State) : Out :=
  .next (s.slotOp (.srstClr o) o (do
    let st := streamIndex o
    modCur fun k => { k with streams := k.streams.erase st }))

/-! ## Owners (R225) -/

/-- The regions of the tensor an OWN names; a tensor that fails R209 traps ILLEGAL with its index, or with a descriptor that fails
R75. -/
def ownKeys (n : Nat) : Slot (List Nat) := do
  let k ← curKern
  if !k.tensorOk n then trapWith 0x02 (tensorTval (n :: k.badDescs n)) 0
  return k.entryKeys n

/-- A region that another engine than e owns traps OWNER with its address. -/
def checkForeign (e : Nat) (keys : List Nat) : Slot Unit := do
  let k ← curKern
  match keys.find? fun key => Tab.get 0 k.own key != 0 && Tab.get 0 k.own key != e + 1 with
  | some key => trapWith 0x05 (wordOf (regionAddr key)) 0
  | none => return

/-- OWN.GIVE (R225). -/
def execOwnGive (o : Op) (s : State) : Out :=
  .next (s.slotOp (.ownGive o) o (do
    let e := (o.m.extractLsb' 0 3).toNat
    let keys ← ownKeys o.a.toNat
    checkForeign e keys
    modCur fun k => k.giveRegions e keys))

/-- OWN.TAKE (R225). -/
def execOwnTake (o : Op) (s : State) : Out :=
  .next (s.slotOp (.ownTake o) o (do
    let e := (o.m.extractLsb' 0 3).toNat
    let keys ← ownKeys o.a.toNat
    checkForeign e keys
    let k ← curKern
    match keys.find? (k.names e) with
    | some key => trapWith 0x05 (wordOf (regionAddr key)) 0
    | none => modCur fun k => k.takeRegions (keys.filter fun key => Tab.get 0 k.own key == e + 1)))

/-! ## Unit power (R203, R226) -/

/-- The number of units of a buffer (R202). -/
def unitCount (b : BufId) : Nat := match b with | .ab => 8 | .ns => 4 | _ => 16

/-- The units a BPWR names; the checks of R226. -/
def powerUnits (o : Op) : Slot (BufId × List Nat) := do
  let a ← readScalar o.a
  if a.tagged then trapWord 0x10 a.origin
  let b := bufOfCode (o.m.extractLsb' 0 2).toNat
  let k ← curKern
  let units := (List.range 16).filter (a.v.getLsbD ·)
  if a.v.toNat / 2 ^ 16 ≠ 0 || units.any fun u => decide (unitCount b ≤ u) || decide (k.limit b ≤ u * unitBytes b) then illegal
  return (b, units)

/-- A kernel with the state of a unit set. -/
def Kern.setUnit (k : Kern) (b : BufId) (u : Nat) (x : UnitSt) : Kern :=
  { k with units := Tab.put .awake k.units (b.code * 16 + u) x }

/-- BPWR.RETAIN (R203, R226). TVAL of OWNER is the first owned byte of the lowest unit (log 121: DESIGN CHOICE). -/
def execBpwrRetain (o : Op) (s : State) : Out :=
  .next (s.slotOp (.bpwrRetain o) o (do
    let (b, units) ← powerUnits o
    for u in units do
      checkOwner b (u * unitBytes b) (u * unitBytes b + unitBytes b - 1)
    modCur fun k => units.foldl (fun k u => k.setUnit b u .retained) k))

/-- BPWR.WAKE (R203, R226): a RETAINED unit is AWAKE 96 cycles later. -/
def execBpwrWake (o : Op) (s : State) : Out :=
  .next (s.slotOp (.bpwrWake o) o (do
    let (b, units) ← powerUnits o
    modCur fun k => units.foldl (fun k u => if k.unit b u = .retained then k.setUnit b u (.waking (k.cyc + 96)) else k) k))

/-! ## BWPH (09 R240) -/

/-- BWPH (09 R240, R241): the core's view changes at once, and the write goes to the hub, when the segment commits with
resilience on (14 R376). -/
def execBwph (o : Op) (s : State) : Out :=
  .next (s.slotOp (.bwph o) o (do
    let a ← readScalar o.a
    if a.tagged then trapWord 0x10 a.origin
    if a.v.toNat / 2 ^ 42 ≠ 0 ∨ bitsOf a.v.toNat 41 40 = 3 then trapWith 0x02 a.v 0
    let v := a.v.setWidth 42
    let k ← curKern
    modCur fun k => { k with spr := { k.spr with bwphase := v } }
    if k.seg.isSome then holdOp (.bwph v)
    else modify fun s => { s with hub := { s.hub with bwq := s.hub.bwq ++ [(k.ctx, v)] } }))

/-! ## The exchange network (06 R156-R160) -/

/-- The Manhattan distance of two cores' clusters (01 R12). -/
def hops (a b : Nat) : Nat :=
  let ca := a / 8 % 8
  let cb := b / 8 % 8
  let d := fun (x y : Nat) => (x - y) + (y - x)
  d (ca % 4) (cb % 4) + d (ca / 4) (cb / 4)

/-- The partner's coordinate (R156). -/
def partnerCoord (o : Op) : Slot SVal := do
  let k ← curKern
  match (o.m.extractLsb' 0 2).toNat with
  | 0 => readScalar o.b
  | 1 => return .plain (wordOf k.coordNat + 64)
  | _ => return .plain (wordOf k.coordNat - 64)

/-- A tag in an address or a coordinate traps POISON-ADDR with the merged origin (R156; 14 R362). -/
def addressTags (l : List SVal) : Slot Unit := do
  match mergePoison (l.map SVal.org?) with
  | some g => trapWord 0x11 g
  | none => return

/-- The partner of a coordinate in the kernel's own domain; none traps ILLEGAL with the coordinate. -/
def partnerOf (v : Word) : Slot Kern := do
  let s ← get
  let k := s.kern s.issue.kid
  match s.kerns.find? fun y => y.dom == k.dom && v == wordOf y.coordNat with
  | some y => return y
  | none => trapWith 0x02 v 0

/-- TIMING with a reason and the partner (R158). -/
def timing {α : Type} (reason : Nat) (v : Word) : Slot α := trapWith 0x20 (wordOf (reason * 2 ^ 16 + v.toNat % 2 ^ 10)) 0

/-- A core of the domain runs in a segment that no rendezvous opened (R159). -/
def State.strayOpening (s : State) (d : Nat) : Bool :=
  s.kerns.any fun y => y.dom == d && !y.ctl.halted && y.ctl.segDue != some true
    && (match y.seg with | some g => !g.rdv | none => false)

/-- The bundle closes its segment without a rendezvous: it halts, or yields (R160; 14 R374). -/
def Issue.closes (i : Issue) : Bool := i.halt || (match i.wait with | .yield _ => true | _ => false)

/-- An exchange in a segment: every core's must have opened at a rendezvous (R159), and no window may be broken (R158). One of a core
without an open segment lies in those that its partners have open. -/
def checkExchange (v : Word) : Slot Unit := do
  let s ← get
  let k := s.kern s.issue.kid
  match k.seg with
  | some g =>
    if s.strayOpening k.dom || s.issue.closes then throw (.segment 6)
    modCur fun y => { y with seg := some { g with exchange := true } }
  | none =>
    if k.resil then
      if s.strayOpening k.dom then throw (.segment 6)
      modify fun s => { s with kerns := s.kerns.map fun (y : Kern) =>
        if y.dom = k.dom then { y with seg := y.seg.map fun g => { g with exchange := true } } else y }
  match s.dom? k.dom with
  | some d => if d.broken then timing 4 v
  | none => return

/-- XSEND (R156). -/
def execXsend (o : Op) (s : State) : Out :=
  .next (s.slotOp (.xsend o) o (do
    let x ← readVector false o.a
    let c ← partnerCoord o
    addressTags [c]
    let v := c.v
    let t ← partnerOf v
    checkExchange v
    let s ← get
    let k := s.kern s.issue.kid
    let e : XEntry := ⟨k.coordNat, s.dcyc k.dom + 4 + 2 * hops k.core t.core, ⟨x.v, x.tags, x.v⟩, .flying⟩
    modify fun s => s.modKern t.kid fun y => { y with inbox := y.inbox ++ [e] }))

/-- The position of the entry that XRECV matches: the oldest arrival of a sender among those unmatched (R157). -/
def oldestEntry (src dcyc : Nat) (l : List XEntry) : Option (Nat × XEntry) :=
  let c := ((List.range l.length).zip l).filter fun e => e.2.st == .arrived && e.2.src == src && decide (e.2.arr ≤ dcyc)
  c.foldl (fun (b : Option (Nat × XEntry)) e =>
    match b with
    | none => some e
    | some x => if e.2.arr < x.2.arr then some e else b) none

/-- XRECV (R157). -/
def execXrecv (o : Op) (s : State) : Out :=
  .next (s.slotOp (.xrecv o) o (do
    let a ← readScalar o.a
    let c ← partnerCoord o
    addressTags [a, c]
    let v := c.v
    let (b, unit) := if o.m.getLsbD 2 then (BufId.xs, 64) else (BufId.ab, 1)
    let addr := unit * a.v.toNat
    if addr % 256 ≠ 0 then trapWith 0x09 a.v 0
    if (← curKern).limit b < addr + 256 then illegal
    setOpnd (packNat 64 [a.v.toNat, v.toNat])
    checkExchange v
    checkOwner b addr (addr + 255)
    checkAwake b addr (addr + 255)
    let s ← get
    let k := s.kern s.issue.kid
    match oldestEntry v.toNat (s.dcyc k.dom) k.inbox with
    | none => timing 1 v
    | some (i, e) =>
      logWrite b addr 256
      modCur fun y => { y with inbox := modifyAt (fun x => { x with st := .matched }) y.inbox i }
      delayWrites 2 .exchange (elementWrites b ⟨e.r.v, e.r.tags⟩ (BitVec.allOnes 64) fun j => addr + 4 * j)))

end Sys2Proof.Machine
end

