-- ==== Sys2Proof/Machine/Matrix.lean ====
section
/-! DEFINITION. The matrix array (10 R255-R280): operand words, the tile scoreboard, the fold of R95, and the M-slot
operations. A result is computed when its operation issues and lands by a delayed write; the holds of the scoreboard keep
its operands unchanged until then. -/

namespace Sys2Proof.Machine

/-! ## The scoreboard (R276-R278) -/

/-- What an operation needs clear before its bundle may issue. -/
inductive MNeed where
  | rdTile (t : Nat)
  | wrTile (t : Nat)
  /-- A chained accumulation (R277). -/
  | chTile (t : Nat)
  | rdGran (lo hi : Nat)
  | wrGran (lo hi : Nat)
  | rdAb (lo hi : Nat)
  | wrAb (lo hi : Nat)
  /-- The array, the store path, the WS port is free. -/
  | array
  | store
  | wsPort
  /-- No ACCST delivery into the bank is outstanding: registers lo to hi. -/
  | noDelivery (lo hi : Nat)
  deriving DecidableEq, Repr, Inhabited

/-- A mark lies on lo to hi. -/
def MMark.meets (m : MMark) (lo hi : Nat) : Bool := decide (m.lo ≤ hi) && decide (lo ≤ m.hi)

/-- A need that a mark, or a busy unit, forbids in the core's cycle. -/
def Kern.forbids (k : Kern) (n : MNeed) : Bool :=
  let live := k.mat.marks.filter fun m => decide (k.cyc ≤ m.last)
  let on := fun (kind : MKind) lo hi => live.any fun m => m.kind == kind && m.meets lo hi
  match n with
  | .rdTile t => on .tileW t t
  | .wrTile t => on .tileW t t || on .tileR t t
  | .chTile t => (live.any fun m => m.kind == .tileW && !m.fold && m.meets t t) || on .tileR t t
  | .rdGran lo hi => on .granW lo hi
  | .wrGran lo hi => on .granW lo hi || on .granR lo hi
  | .rdAb lo hi => on .abW lo hi
  | .wrAb lo hi => on .abR lo hi
  | .array => decide (k.cyc < k.mat.arrayFree)
  | .store => decide (k.cyc < k.mat.storeFree)
  | .wsPort => decide (k.cyc < k.mat.wldFree)
  | .noDelivery lo hi => k.dw.any fun d => d.regs.any fun r => decide (lo ≤ r.1) && decide (r.1 ≤ hi)

/-- What a checked operation needs, and the buffer ranges it touches. -/
structure MPlan where
  needs : List MNeed
  touch : List (BufId × Nat × Nat)
  deriving DecidableEq, Repr, Inhabited

/-- Checks 3 and 4 of R258: OWNER, then COLD-BANK, over the ranges touched. -/
def checkTouch (l : List (BufId × Nat × Nat)) : Slot Unit := do
  for r in l do checkOwner r.1 r.2.1 r.2.2
  for r in l do checkAwake r.1 r.2.1 r.2.2

/-- Add marks; marks that have cleared are dropped. -/
def addMarks (l : List MMark) : Slot Unit :=
  modCur fun k => { k with mat := { k.mat with marks := (k.mat.marks.filter fun m => decide (k.cyc ≤ m.last)) ++ l } }

/-! ## Operand words (R258, R260) -/

/-- The operand words: all are read first, then POISON-ADDR; and whether a register's word goes beyond 32 bits, which is ILLEGAL
once every POISON-ADDR has been checked. -/
def operandSources (sels : List (BitVec 8)) : Slot (List Nat × Bool) := do
  let vs ← sels.mapM readScalar
  match mergePoison (vs.map SVal.org?) with
  | some g => trapWord 0x11 g
  | none => pure ()
  setOpnd (packNat 64 (vs.map (·.v.toNat)))
  return (vs.map fun x => x.v.toNat % 2 ^ 32, (sels.zip vs).any fun x => decide (x.1.toNat < 0x90) && x.2.v.toNat / 2 ^ 32 != 0)

/-- The operand words of an operation without index elements. -/
def operandWords (sels : List (BitVec 8)) : Slot (List Nat) := do
  let (ws, wide) ← operandSources sels
  if wide then illegal
  return ws

/-- The tile number, bits 31:24. -/
def tileOf (o : Op) : Nat := 2 * o.dst.toNat + (if o.nw then 1 else 0)

/-- Check 2 of R258: a condition that breaks a limit. -/
def rejectIf (b : Bool) : Slot Unit := if b then illegal else pure ()

/-- A tensor that passes R209 and lies in the buffer (R198). -/
def tensorIn (n : Nat) (b : BufId) : Slot Tens := do
  let k ← curKern
  match k.tensorVals n [b] with
  | [] => return (k.capture n).headD default
  | l => trapWith 0x02 (tensorTval l) 0

/-- The formats the array takes (R257). -/
def arrayFormat (f : Fmt) : Bool := [0, 3, 4, 5, 8].contains f.kind

/-- Cycles per K block (R257). -/
def cyclesPerBlock (a b : Fmt) : Nat := let w := max a.w b.w
  if w ≤ 4 then 1 else if w ≤ 8 then 2 else 4

/-- The field width of a B block (R256). -/
def fieldWidth (f : Fmt) : Nat := if f.w ≤ 4 then 4 else if f.w ≤ 8 then 8 else 16

/-- The mask word: rows, columns, depth (R260). -/
def maskWord (m : Nat) (paired : Bool) : Slot (Nat × Nat × Nat) := do
  rejectIf (bitsOf m 31 20 != 0 || decide (32 ≤ bitsOf m 5 0) || (!paired && decide (64 ≤ bitsOf m 12 6))
    || decide (64 ≤ bitsOf m 19 13))
  return (bitsOf m 5 0 + 1, bitsOf m 12 6 + 1, bitsOf m 19 13 + 1)

/-- Tiles of the allotment (R255). -/
def Kern.tiles (k : Kern) : Nat := 16 * k.res.xs

/-- The byte range of a tile. -/
def tileRange (t : Nat) : BufId × Nat × Nat := (.xs, 8192 * t, 8192 * t + 8191)

/-! ## Reading operands -/

/-- The bit address of element (row r, i0) (08 R207). -/
def Tens.rowBit (t : Tens) (r i0 : Nat) : Nat :=
  let e := t.fields
  t.bitAddr (t.offset i0 (r % e.sz 1) (r / e.sz 1 % e.sz 2) (r / (e.sz 1 * e.sz 2)))

/-- The byte range of elements i0 = lo to hi of a row. -/
def Tens.rowRange (t : Tens) (r lo hi : Nat) : Nat × Nat :=
  let a := t.rowBit r lo
  let b := t.rowBit r hi
  (min a b / 8, (max a b + t.format.w - 1) / 8)

/-- The byte ranges of elements i0 = lo to hi of a row: one range where they adjoin, else one for each element. -/
def Tens.rowRanges (t : Tens) (r lo hi : Nat) : List (Nat × Nat) :=
  if (t.fields.str 0).natAbs ≤ 1 then [t.rowRange r lo hi]
  else (List.range (hi + 1 - lo)).map fun i => t.rowRange r (lo + i) (lo + i)

/-- Ranges of a first and a last byte as an address and a count of bytes. -/
def counted (l : List (Nat × Nat)) : List (Nat × Nat) := l.map fun r => (r.1, r.2 + 1 - r.1)

/-- An element as an operand: poison where its sector is marked, with the origin narrowed to the format (R255, 04 R93). -/
def Buf.operand (x : Buf) (f : Fmt) (bit : Nat) : FVal :=
  match x.element bit f.w with
  | (_, some o) => .poison (carried f o)
  | (v, none) => decodeF f v

/-- An S16 scale word of a buffer: P = 1 with the origin where its sector is marked (04 R78, R93). -/
def Buf.scaleWord (x : Buf) (addr : Nat) : Nat :=
  match x.marksOver addr 2 with
  | some o => 2 ^ 15 + o.toNat
  | none => leNat (x.mem.read addr 2)

/-- A scale of 1 (R257). -/
def oneVal : FVal := .fin ⟨false, 1, 0, false⟩

/-- The value of a scale, or 1 for a format without scales. -/
def scaleOf (s : Option Nat) : Arith FVal := match s with | some w => scaleVal w | none => pure oneVal

/-- The operands of a multiplication as the array reads them. -/
structure MTerms where
  /-- Term k of block b of a source row, and the scale of the block. -/
  a : Nat → Nat → Nat → FVal
  sa : Nat → Nat → Option Nat
  /-- The physical elements that make up B[k][j] of block b, and the scale of column j. -/
  b : Nat → Nat → Nat → List FVal
  sb : Nat → Nat → Option Nat
  /-- The checksum column of block b is upset (R256). -/
  upset : Nat → Bool

/-- A matrix multiplication as resolved at issue (R261, R266, R268, R270). -/
structure MatOp where
  zero : Bool
  rm : Nat
  sat : Bool
  kb : Nat
  dep : Nat
  cols : Nat
  /-- Source row, tile and tile row of each live row, in the order of the folds. -/
  rows : List (Nat × Nat × Nat)
  /-- The operands that AB and WS hold. -/
  terms : Buf → Buf → MTerms
  /-- The cycles for which the array is busy. -/
  busy : Nat
  plan : MPlan
  /-- First and last granule of the blocks, and of their pairing map. -/
  granules : List (Nat × Nat)
  abReads : List (Nat × Nat)
  /-- The WS bytes read: those of the pairing map, and those of the elements, which the map decides. -/
  mapReads : List (Nat × Nat)
  wsReads : Buf → List (Nat × Nat)

/-! ## The fold (04 R95, R96) -/

/-- The exact sum of two values that are no poison; none where infinities of both signs meet. -/
def sumExact (a b : FVal) : Option FVal :=
  match a, b with
  | .fin x, .fin y => some (.fin (exSum false x y))
  | .inf n, .inf p => if n == p then some (.inf n) else none
  | .inf n, _ => some (.inf n)
  | _, .inf p => some (.inf p)
  | _, _ => none

/-- The exact product of two values that are no poison; none for 0 x infinity. -/
def mulExact (a b : FVal) : Option FVal :=
  match a, b with
  | .fin x, .fin y => some (.fin (exMul x y))
  | .inf n, .inf p => some (.inf (n != p))
  | .inf n, .fin y => if y.isZero then none else some (.inf (n != y.neg))
  | .fin x, .inf p => if x.isZero then none else some (.inf (x.neg != p))
  | _, _ => none

/-- The exact sum of a list. -/
def sumList : List FVal → Option FVal
  | [] => some (.fin ⟨false, 0, 0, false⟩)
  | x :: t => do sumExact x (← sumList t)

/-- The block sum T; none where it is invalid (R96). -/
def blockSum : List FVal → List (List FVal) → Option FVal
  | x :: xs, y :: ys => do sumExact (← mulExact x (← sumList y)) (← blockSum xs ys)
  | _, _ => some (.fin ⟨false, 0, 0, false⟩)

/-- Fold (R95): the accumulator's bits after one K block. Every fold takes its SR bits (04 R81), and the indices of its
scales before those of its elements (log 119: DESIGN CHOICE). -/
def fold (rm : Nat) (sat : Bool) (acc : Nat) (sa sb : Option Nat) (as : List FVal) (bs : List (List FVal)) : Arith Nat := do
  let r ← takeSR rm
  let u ← scaleOf sa
  let v ← scaleOf sb
  let x := decodeF .f32 acc
  match ← gather (x :: u :: v :: as ++ bs.flatten) with
  | some o => return poisonBits .f32 o
  | none =>
    let c := do mulExact (← mulExact u v) (← blockSum as bs)
    match c with
    | none => return poisonBits .f32 (← newOrigin kNANGEN)
    | some (.fin y) =>
      if y.isZero then return acc
      match x with
      | .fin z =>
        match ← roundFin .f32 (exSum (rm == 3) z y) r rm sat with
        | .bits n => return n
        | .poison o => return poisonBits .f32 o
      | _ => return acc
    | some y =>
      match sumExact x y with
      | some (.inf n) => return infBits .f32 n
      | _ => return poisonBits .f32 (← newOrigin kNANGEN)

/-- The columns of one row, folded with one block. -/
def foldCols (m : MatOp) (q : MTerms) (src b d : Nat) (as : List FVal) : Nat → List Nat → Arith (List Nat)
  | _, [] => pure []
  | j, x :: t => do
    let y ← fold m.rm m.sat x (q.sa src b) (q.sb b j) as ((List.range d).map fun k => q.b b k j)
    return y :: (← foldCols m q src b d as (j + 1) t)

/-- The live terms of block b. -/
def MatOp.depth (m : MatOp) (b : Nat) : Nat := if b + 1 = m.kb then m.dep else 64

/-- The rows of an operation, folded in order with one block; accumulator rows are keyed by tile x 32 + row. -/
def foldRows (m : MatOp) (q : MTerms) (b : Nat) : List (Nat × Nat × Nat) → Tab (List Nat) → Arith (Tab (List Nat))
  | [], t => pure t
  | (src, tile, row) :: rest, t => do
    let d := m.depth b
    let key := tile * 32 + row
    let r ← foldCols m q src b d ((List.range d).map fun k => q.a src b k) 0 (Tab.get [] t key)
    foldRows m q b rest (Tab.set t key r)

/-- The blocks of an operation, in ascending order. -/
def foldBlocks (m : MatOp) (q : MTerms) : Nat → Nat → Tab (List Nat) → Arith (Tab (List Nat))
  | 0, _, t => pure t
  | n + 1, b, t => do foldBlocks m q n (b + 1) (← foldRows m q b m.rows t)

/-- The byte address of a written element: tile row key, logical column (R255, R262). -/
def elemAt (key j : Nat) : Nat := 8192 * (key / 32 + j / 64) + 256 * (key % 32) + 4 * (j % 64)

/-- The bits of an accumulator element; poison where its sector is marked. -/
def Buf.accBits (x : Buf) (addr : Nat) : Nat :=
  match x.markAt addr with
  | some o => poisonBits .f32 o
  | none => leNat (x.mem.read addr 4)

/-- Bytes of 32-bit words. -/
def wordBytes (l : List Nat) : List Byte := l.flatMap fun x => leBytes 4 x

/-- The writes of accumulator rows. -/
def rowWrites (t : Tab (List Nat)) : List BWrite :=
  t.flatMap fun r =>
    ⟨.xs, elemAt r.1 0, wordBytes (r.2.take 64), none⟩
      :: (if 64 < r.2.length then [⟨.xs, elemAt r.1 64, wordBytes (r.2.drop 64), none⟩] else [])

/-- The tiles an operation writes. -/
def MatOp.tiles (m : MatOp) : List Nat :=
  dedup (m.rows.flatMap fun r => if 64 < m.cols then [r.2.1, r.2.1 + 1] else [r.2.1])

/-! ## The checksum column (R256, R279) -/

/-- The value of a term that is neither poison nor an infinity. -/
def FVal.exact : FVal → Option Ex
  | .fin x => some x
  | _ => none

/-- The exact sum of finite values. -/
def exTotal (l : List Ex) : Ex := l.foldr (exSum false) ⟨false, 0, 0, false⟩

/-- The sums that R279 compares for one row and block, from its terms and, per column, the elements of each term: that of the
block sums, and that of the terms with the column's sums, the first of which is off by `off`; none where a term or an
element is poison or an infinity, and so no block sum is valid and finite. -/
def rowSums (as : List FVal) (cols : List (List (List FVal))) (off : Ex) : Option (Ex × Ex) := do
  let a ← as.mapM FVal.exact
  let b ← cols.mapM fun c => c.mapM fun e => e.mapM FVal.exact
  let column := (List.range a.length).map fun k =>
    exTotal ((if k = 0 then [off] else []) ++ b.flatMap fun c => c.getD k [])
  return (exTotal (b.map fun c => exTotal (List.zipWith exMul a (c.map exTotal))), exTotal (List.zipWith exMul a column))

/-- A block's scale is poison (04 R78). -/
def scalePoison (s : Option Nat) : Bool := match s with | some w => decide (32768 ≤ w) || bitsOf w 14 7 == 255 | none => false

/-- Some row's block sums contradict the checksum column (R279); a row whose block carries poison, in its scales too, is left out. -/
def MatOp.mismatch (m : MatOp) (q : MTerms) : Bool :=
  (List.range m.kb).any fun b =>
    let ks := List.range (m.depth b)
    let cols := (List.range m.cols).map fun j => ks.map fun k => q.b b k j
    m.rows.any fun r => !scalePoison (q.sa r.1 b) && !((List.range m.cols).any fun j => scalePoison (q.sb b j)) &&
      match rowSums (ks.map (q.a r.1 b)) cols ⟨false, if q.upset b then 1 else 0, 0, false⟩ with
      | some (x, y) => !(exSum false x { y with neg := !y.neg }).isZero
      | none => false

/-! ## Running a multiplication -/

/-- The elements that the rows accumulate into, as ranges of XS (R262). -/
def MatOp.accRanges (m : MatOp) : List (Nat × Nat) :=
  m.rows.flatMap fun r => let key := r.2.1 * 32 + r.2.2
    (elemAt key 0, 4 * min m.cols 64) :: (if 64 < m.cols then [(elemAt key 64, 4 * (m.cols - 64))] else [])

/-- The accumulator rows as the operation starts: zeros under ZERO, else what the tiles hold (R262). -/
def MatOp.startRows (m : MatOp) (x : Buf) : Tab (List Nat) :=
  m.rows.foldl (fun t r => Tab.set t (r.2.1 * 32 + r.2.2) ((List.range m.cols).map fun j =>
    if m.zero then 0 else x.accBits (elemAt (r.2.1 * 32 + r.2.2) j))) []

/-- Reading WS consumes its uncorrectable words: first those of the pairing map, which decides what else is read (08 R200). -/
def touchWeights (m : MatOp) : Slot Unit := do
  let k ← curKern
  if k.ws.ue.isEmpty && k.ws.ce.isEmpty then return
  touchRanges .ws m.mapReads
  touchRanges .ws (m.wsReads ((← curKern).bufLast .ws))

/-- Run a resolved multiplication (R262, R264, R276): its results land at c + 14 + kb x cpb. It sees what an ACCWR of its bundle
writes (log 122: DESIGN CHOICE). -/
def runMat (m : MatOp) : Slot Unit := do
  checkTouch m.plan.touch
  if m.rows.isEmpty then return
  for t in m.tiles do logWrite .xs (8192 * t) 8192
  touchRanges .ab (counted m.abReads)
  touchWeights m
  if !m.zero then touchRanges .xs m.accRanges
  let k ← curKern
  let q := m.terms (k.bufLast .ab) (k.bufLast .ws)
  let (t, _) ← runArith (← get).issue.opnd 0 (foldBlocks m q m.kb 0 (m.startRows (k.bufLast .xs)))
  let c := k.cyc
  let d := (← get).slotWrite ⟨c + 14 + m.busy, .matrix, rowWrites t, [], [], [], m.mismatch q, 0, 0, [], 0, 0⟩
  modCur fun y => { y with
    dw := y.dw ++ [d]
    mat := { y.mat with arrayFree := c + m.busy } }
  addMarks ((m.tiles.map fun t => ⟨.tileW, t, t, c + 13 + m.busy, true⟩)
    ++ (m.granules.map fun g => ⟨.granR, g.1, g.2, c + m.busy - 1, false⟩)
    ++ m.abReads.map fun r => ⟨.abR, r.1, r.2, c + m.busy - 1, false⟩)

/-! ## MMA, MMAG, MCONV -/

/-- The fields of a B word (R260). -/
structure BWord where
  paired : Bool
  zero : Bool
  sat : Bool
  rm : Nat
  kb : Nat
  blk : Nat
  tens : Nat
  deriving DecidableEq, Repr, Inhabited

/-- The B word, its reserved fields and its limits. -/
def bWord (w : Nat) (mma conv : Bool) : Slot BWord := do
  rejectIf (bitsOf w 31 27 != 0 || bitsOf w 23 23 != 0 || decide (4 < bitsOf w 22 20)
    || (!mma && bitsOf w 26 26 == 1) || (!mma && !conv && bitsOf w 25 25 == 1))
  return ⟨bitsOf w 26 26 == 1, bitsOf w 25 25 == 1, bitsOf w 24 24 == 1, bitsOf w 22 20, bitsOf w 19 16 + 1,
    bitsOf w 15 8, bitsOf w 7 0⟩

/-- The B operand: its format, its elements and scales, which blocks have an upset checksum column, its granules, the ranges it
touches, the bytes of its map and, for a count of columns and the terms of each block, of its elements. -/
structure BSide where
  f : Fmt
  b : Buf → Nat → Nat → Nat → List FVal
  sb : Nat → Nat → Option Nat
  upset : Buf → Nat → Bool
  granules : List (Nat × Nat)
  touch : List (BufId × Nat × Nat)
  mapReads : Nat → List (Nat × Nat)
  reads : Nat → (Nat → Nat) → Buf → List (Nat × Nat)

/-- The slots of physical column p of a block that hold (k, sel), from its 64 map bytes (R263), each with the origin of a marked
sector its map byte lies in: such a byte may name any (k, sel). -/
def pairedSlots (x : Buf) (base p k sel : Nat) : List (Nat × Option Origin) :=
  (List.range 64).filterMap fun s =>
    let v := (x.mem.byte (base + 64 * p + s)).toNat
    match x.markAt (base + 64 * p + s) with
    | some o => some (s, some o)
    | none => if bitsOf v 7 7 == 1 && bitsOf v 6 6 == sel && bitsOf v 5 0 == k then some (s, none) else none

/-- The last byte of the tensor's elements is no lower. -/
def Tens.covers (t : Tens) (hi : Nat) : Bool :=
  match t.fields.ranges t.format with | r :: _ => decide ((hi : Int) ≤ r.2) | [] => false

/-- The B operand of a B word (R256, R261, R263). -/
def bSide (w : BWord) : Slot BSide := do
  let t ← tensorIn w.tens .ws
  let k ← curKern
  let e := t.fields
  let f := t.format
  rejectIf (!arrayFormat f || e.layout != (if w.paired then 2 else 0))
  let fw := fieldWidth f
  let base := e.base + 512 * fw * w.blk
  let last := base + 512 * fw * w.kb - 1
  rejectIf (!t.covers last)
  let elem := fun (ws : Buf) b (s p : Nat) => ws.operand f (8 * (base + 512 * fw * b) + fw * (64 * p + s))
  let scale := fun b j => if f.scaled then some (Tab.get (0 : BitVec 16) k.scales ((base + 512 * fw * b) / 2048 * 128 + j)).toNat else none
  let upset := fun (ws : Buf) b =>
    (List.range (fw / 4)).any fun q => ws.upset.contains ((base + 512 * fw * b) / 2048 + q)
  let field := fun b (s p n : Nat) => (base + 512 * fw * b + fw * (64 * p + s) / 8, ceilDiv (fw * (64 * p + s) % 8 + fw * n) 8)
  let gran := [(base / 2048, last / 2048)]
  let touch := [(BufId.ws, base, last)]
  if w.paired then
    let m ← tensorIn (e.aux.getD 0 0) .ws
    let mb := m.fields.base + 4096 * w.blk
    rejectIf (!m.covers (mb + 4096 * w.kb - 1))
    return { f := f, sb := scale, upset := upset
             b := fun ws b kk j => (pairedSlots ws (mb + 4096 * b) (j % 64) kk (j / 64)).map fun s =>
               match s.2 with | some o => .poison o | none => elem ws b s.1 (j % 64)
             granules := gran ++ [(mb / 2048, (mb + 4096 * w.kb - 1) / 2048)]
             touch := touch ++ [(.ws, mb, mb + 4096 * w.kb - 1)]
             mapReads := fun cols => (List.range w.kb).map fun b => (mb + 4096 * b, 64 * min cols 64)
             reads := fun cols dep ws => (List.range w.kb).flatMap fun b => (List.range cols).flatMap fun j =>
               (List.range (dep b)).flatMap fun kk => (pairedSlots ws (mb + 4096 * b) (j % 64) kk (j / 64)).map fun s =>
                 field b s.1 (j % 64) 1 }
  else return { f := f, sb := scale, upset := upset
                b := fun ws b kk j => [elem ws b kk j]
                granules := gran, touch := touch, mapReads := fun _ => []
                reads := fun cols dep _ => (List.range w.kb).flatMap fun b => (List.range cols).map fun j => field b 0 j (dep b) }

/-- A multiplication with this B operand, its A operand read by `a` and `sa`. -/
def MatOp.operands (m : MatOp) (b : BSide) (a : Buf → Nat → Nat → Nat → FVal) (sa : Buf → Nat → Nat → Option Nat) : MatOp :=
  { m with
    terms := fun ab ws => ⟨a ab, sa ab, b.b ws, b.sb, b.upset ws⟩
    granules := b.granules
    mapReads := b.mapReads m.cols
    wsReads := b.reads m.cols m.depth }

/-- The needs that every multiplication has: the array, its granules, its AB bytes, its tiles. -/
def mulNeeds (zero : Bool) (tiles : List Nat) (gran : List (Nat × Nat)) (ab : List (Nat × Nat)) : List MNeed :=
  .array :: (gran.map fun g => .rdGran g.1 g.2) ++ (ab.map fun r => .rdAb r.1 r.2)
    ++ tiles.map fun t => if zero then .wrTile t else .chTile t

/-- Element k of a lent row, and its scale (R266, R184): a tag makes the term poison. -/
def lentTerm (f : Fmt) (r : VReg) (k : Nat) : FVal :=
  let bit := if f.kind = 0 then k * f.w else 16 * k
  let x : VOp := ⟨r.v, r.tags⟩
  match mergePoison [x.org? false (bit / 32), x.org? false ((bit + f.w - 1) / 32)] with
  | some o => .poison o
  | none => decodeF f (r.v.toNat / 2 ^ bit)

/-- The first register of the bank a lent word names: vb or vd (R260). -/
def lentBase (w : Nat) : Nat := if bitsOf w 4 4 = 0 then 32 else 96

/-- The bank a lent word names is lent. -/
def Kern.isLent (k : Kern) (base : Nat) : Bool := if base = 32 then k.mat.lentB else k.mat.lentD

/-- The registers of a lent bank from `base`, below n. -/
def lentRows (base : Nat) : Nat → Nat → Slot (List VReg)
  | 0, _ => pure []
  | n + 1, i => do
    let r ← readVReg (base + i)
    return r :: (← lentRows base n (i + 1))

/-- The S16 scale of a lent row in the layout of R184; a tag on it is its poison. -/
def lentScale (r : VReg) : Nat :=
  match (VOp.mk r.v r.tags).org? false 16 with
  | some o => 2 ^ 15 + o.toNat
  | none => r.v.toNat / 2 ^ 512 % 2 ^ 16

/-- The live terms of a row lie within the tensor's extent (R261). -/
def extentOk (t : Tens) (row first count : Nat) : Bool :=
  decide (first + count ≤ t.fields.sz 0) && decide (row < t.fields.rows)

/-- A row source in AB: its terms, its block scales (R261). -/
def abTerm (x : Buf) (t : Tens) (kb0 src b k : Nat) : FVal := x.operand t.format (t.rowBit src (64 * (kb0 + b) + k))
/-- The scale of block b of a source row. -/
def abScale (x : Buf) (t : Tens) (kb0 src b : Nat) : Option Nat :=
  if t.format.scaled then some (x.scaleWord (t.scaleAddr src (kb0 + b))) else none

/-- The AB ranges that rows read: their terms and their scales. -/
def abRanges (t : Tens) (srcs : List Nat) (kb0 count : Nat) : List (Nat × Nat) :=
  srcs.flatMap fun r => t.rowRanges r (64 * kb0) (64 * kb0 + count - 1)
    ++ (if t.format.scaled then [(t.scaleAddr r kb0, t.scaleAddr r (kb0 + (count - 1) / 64) + 1)] else [])

/-- Ranges of AB as touched ranges. -/
def abTouch (l : List (Nat × Nat)) : List (BufId × Nat × Nat) := l.map fun r => (.ab, r.1, r.2)

/-- A multiplication of a B word before its rows and operands are known: it needs the array. -/
def BWord.matOp (w : BWord) (kb cols dep busy : Nat) : MatOp :=
  { zero := w.zero, rm := w.rm, sat := w.sat, kb := kb, dep := dep, cols := cols, rows := [], busy := busy
    terms := fun _ _ => ⟨fun _ _ _ => .foreign, fun _ _ => none, fun _ _ _ => [], fun _ _ => none, fun _ => false⟩
    plan := ⟨[.array], []⟩, granules := [], abReads := [], mapReads := [], wsReads := fun _ => [] }

/-- MMA resolved (R261, R266). -/
def planMma (o : Op) : Slot MatOp := do
  let ws ← operandWords [o.a, o.b, o.m]
  let aw := ws.getD 0 0
  let w ← bWord (ws.getD 1 0) true false
  let (rows, cols, dep) ← maskWord (ws.getD 2 0) w.paired
  let k ← curKern
  let t := tileOf o
  let nt := if w.paired then 2 else 1
  let count := 64 * (w.kb - 1) + dep
  let dests := (List.range rows).map fun r => (r, t, r)
  let tiles := if 64 < cols then [t, t + 1] else [t]
  if bitsOf aw 31 31 = 1 then
    rejectIf (bitsOf aw 30 5 != 0 || w.kb != 1 || !k.isLent (lentBase aw))
    let f ← (match Fmt.ofDesc (k.fmtDesc (bitsOf aw 3 0)) with | some f => pure f | none => illegal : Slot Fmt)
    rejectIf (!([0, 3, 4].contains f.kind))
    let b ← bSide w
    rejectIf (decide (k.tiles < t + nt))
    let regs ← lentRows (lentBase aw) rows 0
    let m : MatOp := { w.matOp 1 cols dep (cyclesPerBlock f b.f) with
      rows := dests
      plan := ⟨.noDelivery (lentBase aw) (lentBase aw + 31) :: mulNeeds w.zero tiles b.granules [], b.touch ++ tiles.map tileRange⟩ }
    return m.operands b (fun _ r _ kk => lentTerm f (regs.getD r VReg.zero) kk)
      (fun _ r _ => if f.scaled then some (lentScale (regs.getD r VReg.zero)) else none)
  else
    rejectIf (bitsOf aw 30 30 != 0)
    let ta ← tensorIn (bitsOf aw 7 0) .ab
    let kb0 := bitsOf aw 29 24
    let row0 := bitsOf aw 23 8
    rejectIf (!arrayFormat ta.format || ta.fields.layout != 0)
    let b ← bSide w
    rejectIf (!extentOk ta (row0 + rows - 1) (64 * kb0) count || decide (k.tiles < t + nt))
    let srcs := dests.map fun d => (row0 + d.1, d.2)
    let ab := abRanges ta (srcs.map (·.1)) kb0 count
    let m : MatOp := { w.matOp w.kb cols dep (w.kb * cyclesPerBlock ta.format b.f) with
      rows := srcs, abReads := ab
      plan := ⟨mulNeeds w.zero tiles b.granules ab, abTouch ab ++ b.touch ++ tiles.map tileRange⟩ }
    return m.operands b (fun x => abTerm x ta kb0) (fun x => abScale x ta kb0)

/-- MMA (R262). -/
def execMma (o : Op) (s : State) : Out :=
  .next (s.slotOp (.mma o) o (do runMat (← planMma o)))

/-- An INDEX tensor in AB (R267). -/
def indexTensor (n : Nat) : Slot Tens := do
  let t ← tensorIn n .ab
  rejectIf (t.fields.layout != 4)
  return t

/-- tN where it is an INDEX tensor of AB that passes R209. -/
def Kern.indexOf (k : Kern) (n : Nat) : Option Tens :=
  let t := (k.capture n).headD default
  if k.tensorOk n && t.fields.buf == .ab && t.fields.layout == 4 then some t else none

/-- The elements at positions of an index tensor, as far as it has them. -/
def indexPlaces (t : Tens) (pos n : Nat) : List (Tens × Nat) :=
  ((List.range n).filter fun i => decide (pos + i < t.fields.sz 0)).map fun i => (t, pos + i)

/-- The AB ranges of index elements. -/
def indexRanges (l : List (Tens × Nat)) : List (Nat × Nat) := l.map fun e => e.1.rowRange 0 e.2 e.2

/-- Reading index elements consumes their errors; the first from a marked sector traps POISON-ADDR (R258, R267, R268). -/
def checkIndices (l : List (Tens × Nat)) : Slot Unit := do
  touchRanges .ab (counted (indexRanges l))
  let x := (← curKern).bufLast .ab
  match l.findSome? fun e => (x.element (e.1.rowBit 0 e.2) 32).2 with
  | none => return
  | some g =>
    let s ← get
    throw (.kept s 0x11 s.slotWord g)

/-- An element of an index tensor: beyond the tensor it traps ILLEGAL with the position (R267, R268). -/
def readIndex (x : Buf) (t : Tens) (pos : Nat) : Slot Nat := do
  if t.fields.sz 0 ≤ pos then trapWith 0x02 (wordOf pos) 0
  return (x.element (t.rowBit 0 pos) 32).1

/-- The gathered and scattered rows of an MMAG, in the order of the folds (R268). -/
def gatherRows (x : Buf) (ai ci ta : Tens) (apos cpos tile tiles : Nat) : Nat → Nat → Slot (List (Nat × Nat × Nat))
  | 0, _ => pure []
  | n + 1, r => do
    let a ← readIndex x ai (apos + r)
    let v ← readIndex x ci (cpos + r)
    if ta.fields.rows ≤ a then trapWith 0x02 (wordOf (apos + r)) 0
    if tiles ≤ tile + v / 32 then trapWith 0x02 (wordOf (cpos + r)) 0
    return (a, tile + v / 32, v % 32) :: (← gatherRows x ai ci ta apos cpos tile tiles n (r + 1))

/-- The rows of an MMAG with this mask word: min(ROWS, LEFT) (R268). -/
def Kern.gathered (k : Kern) (m : Nat) : Nat := min (bitsOf m 5 0 + 1) k.mat.left

/-- The index elements that an MMAG with this mask word reads, row by row, AI before CI. -/
def Kern.gatherPlaces (k : Kern) (m : Nat) : List (Tens × Nat) :=
  match k.indexOf k.mat.ai, k.indexOf k.mat.ci with
  | some a, some c => (List.range (k.gathered m)).flatMap fun r => indexPlaces a (k.mat.apos + r) 1 ++ indexPlaces c (k.mat.cpos + r) 1
  | _, _ => []

/-- MMAG resolved (R268); with no rows left it needs the array alone. -/
def planMmag (o : Op) : Slot MatOp := do
  let (ws, wide) ← operandSources [o.a, o.b, o.m]
  let mw := ws.getD 2 0
  checkIndices ((← curKern).gatherPlaces mw)
  rejectIf wide
  let aw := ws.getD 0 0
  let w ← bWord (ws.getD 1 0) false false
  let (_, cols, dep) ← maskWord mw false
  rejectIf (bitsOf aw 31 30 != 0 || bitsOf aw 23 8 != 0)
  let k ← curKern
  let ta ← tensorIn (bitsOf aw 7 0) .ab
  let kb0 := bitsOf aw 29 24
  rejectIf (!arrayFormat ta.format || ta.fields.layout != 0)
  let b ← bSide w
  let n := k.gathered mw
  let base := w.matOp w.kb cols dep (w.kb * cyclesPerBlock ta.format b.f)
  if n = 0 then return { base with plan := ⟨[.array], b.touch⟩ }
  else
    let count := 64 * (w.kb - 1) + dep
    rejectIf (!extentOk ta 0 (64 * kb0) count)
    let ai ← indexTensor k.mat.ai
    let ci ← indexTensor k.mat.ci
    let l ← gatherRows (k.bufLast .ab) ai ci ta k.mat.apos k.mat.cpos (tileOf o) k.tiles n 0
    let ab := indexRanges (k.gatherPlaces mw) ++ abRanges ta (l.map (·.1)) kb0 count
    let tiles := dedup (l.map (·.2.1))
    let m : MatOp := { base with
      rows := l, abReads := ab
      plan := ⟨mulNeeds false tiles b.granules ab, abTouch ab ++ b.touch ++ tiles.map tileRange⟩ }
    return m.operands b (fun x => abTerm x ta kb0) (fun x => abScale x ta kb0)

/-- MMAG (R268): the gather state advances past the rows taken. -/
def execMmag (o : Op) (s : State) : Out :=
  .next (s.slotOp (.mmag o) o (do
    let m ← planMmag o
    runMat m
    let n := m.rows.length
    modCur fun k => { k with mat :=
      { k.mat with apos := k.mat.apos + n, cpos := k.mat.cpos + n, left := k.mat.left - n } }))

/-- The window geometry of a CSET record (R269). -/
structure ConvRec where
  ow : Nat
  oh : Nat
  py : Nat
  px : Nat
  dy : Nat
  dx : Nat
  sy : Nat
  sx : Nat
  kh : Nat
  kw : Nat
  itens : Nat
  deriving DecidableEq, Repr, Inhabited

/-- A CSET record read field by field. -/
def convRec (r : BitVec 512) : ConvRec :=
  let w := entWord r 0
  ⟨bitsOf w 63 48 + 1, bitsOf (entWord r 1) 15 0 + 1, bitsOf w 47 40, bitsOf w 39 32, bitsOf w 31 28 + 1, bitsOf w 27 24 + 1,
   bitsOf w 23 20 + 1, bitsOf w 19 16 + 1, bitsOf w 15 12 + 1, bitsOf w 11 8 + 1, bitsOf w 7 0⟩

/-- The input pixel (x, y) that tap t of output pixel p reads; none in the padding (R270). -/
def ConvRec.pixel (c : ConvRec) (t : Tens) (p tap : Nat) : Option (Nat × Nat) :=
  let x : Int := (p % c.ow * c.sx + tap % c.kw * c.dx : Nat) - (c.px : Int)
  let y : Int := (p / c.ow * c.sy + tap / c.kw * c.dy : Nat) - (c.py : Int)
  if tap < c.kh * c.kw ∧ 0 ≤ x ∧ x < t.fields.sz 1 ∧ 0 ≤ y ∧ y < t.fields.sz 2 then some (x.toNat, y.toNat) else none

/-- Term κ of output pixel p (R270). -/
def convTerm (b : Buf) (c : ConvRec) (t : Tens) (kb0 p blk k : Nat) : FVal :=
  let kk := 64 * (kb0 + blk) + k
  match c.pixel t p (kk / t.fields.sz 0) with
  | none => .fin ⟨false, 0, 0, false⟩
  | some (x, y) => b.operand t.format (t.bitAddr (t.offset (kk % t.fields.sz 0) x y 0))

/-- The scale of a block of a scaled input (R270). -/
def convScale (b : Buf) (c : ConvRec) (t : Tens) (kb0 p blk : Nat) : Option Nat :=
  if !t.format.scaled then none
  else
    let kk := 64 * (kb0 + blk)
    (c.pixel t p (kk / t.fields.sz 0)).map fun q =>
      b.scaleWord (t.scaleAddr (q.1 + t.fields.sz 1 * q.2) (kk % t.fields.sz 0 / 64))

/-- The AB ranges that output pixels read, tap by tap. -/
def convRanges (c : ConvRec) (t : Tens) (pixels : List Nat) (first count : Nat) : List (Nat × Nat) :=
  let cin := t.fields.sz 0
  pixels.flatMap fun p => (List.range ((first + count - 1) / cin - first / cin + 1)).flatMap fun i =>
    let tap := first / cin + i
    match c.pixel t p tap with
    | none => []
    | some (x, y) =>
      let lo := max first (tap * cin) - tap * cin
      let hi := min (first + count - 1) (tap * cin + cin - 1) - tap * cin
      let row := x + t.fields.sz 1 * y
      t.rowRanges row lo hi ++ (if t.format.scaled then [(t.scaleAddr row (lo / 64), t.scaleAddr row (hi / 64) + 1)] else [])

/-- MCONV resolved (R270). -/
def planMconv (o : Op) : Slot MatOp := do
  let ws ← operandWords [o.a, o.b, o.m]
  let cw := ws.getD 0 0
  let w ← bWord (ws.getD 1 0) false true
  let (rows, cols, dep) ← maskWord (ws.getD 2 0) false
  let k ← curKern
  match k.mat.cset with
  | none => illegal
  | some (r, t) =>
    let c := convRec r
    let kb0 := bitsOf cw 29 24
    let pix := bitsOf cw 23 0
    let b ← bSide w
    let tile := tileOf o
    rejectIf (bitsOf cw 31 30 != 0 || decide (c.oh * c.ow < pix + rows) || decide (k.tiles ≤ tile))
    let ab := convRanges c t ((List.range rows).map (pix + ·)) (64 * kb0) (64 * (w.kb - 1) + dep)
    let m : MatOp := { w.matOp w.kb cols dep (w.kb * cyclesPerBlock t.format b.f) with
      rows := (List.range rows).map fun i => (pix + i, tile, i), abReads := ab
      plan := ⟨mulNeeds w.zero [tile] b.granules ab, abTouch ab ++ b.touch ++ [tileRange tile]⟩ }
    return m.operands b (fun x => convTerm x c t kb0) (fun x => convScale x c t kb0)

/-- MCONV (R270). -/
def execMconv (o : Op) (s : State) : Out :=
  .next (s.slotOp (.mconv o) o (do runMat (← planMconv o)))

/-! ## GSET and CSET (R267, R269) -/

/-- The count element that a count word of GSET names, where its tensor holds it (R267). -/
def Kern.countPlace (k : Kern) (w : Nat) : List (Tens × Nat) :=
  if bitsOf w 7 0 = 0xFF then []
  else match k.indexOf (bitsOf w 7 0) with | some t => indexPlaces t (bitsOf w 23 8) 1 | none => []

/-- GSET resolved: the index words, and the count element. -/
def planGset (o : Op) : Slot (MPlan × Nat × Nat × Option (Tens × Nat)) := do
  let (ws, wide) ← operandSources [o.a, o.b, o.m]
  let aw := ws.getD 0 0
  let cw := ws.getD 1 0
  let nw := ws.getD 2 0
  checkIndices ((← curKern).countPlace nw)
  rejectIf wide
  rejectIf (bitsOf nw 31 24 != 0)
  let ai ← indexTensor (bitsOf aw 7 0)
  let ci ← indexTensor (bitsOf cw 7 0)
  if bitsOf nw 7 0 = 0xFF then return (⟨[], ai.spans ++ ci.spans⟩, aw, cw, none)
  else
    let nt ← indexTensor (bitsOf nw 7 0)
    let i := bitsOf nw 23 8
    rejectIf (decide (nt.fields.sz 0 ≤ i))
    return (⟨(indexRanges [(nt, i)]).map fun r => .rdAb r.1 r.2, ai.spans ++ ci.spans ++ nt.spans⟩, aw, cw, some (nt, i))

/-- GSET (R267). -/
def execGset (o : Op) (s : State) : Out :=
  .next (s.slotOp (.gset o) o (do
    let (p, aw, cw, n) ← planGset o
    checkTouch p.touch
    let k ← curKern
    let apos := bitsOf aw 31 8
    let cpos := bitsOf cw 31 8
    let size := fun w => (entOf (k.entry (bitsOf w 7 0))).sz 0
    let left ← (match n with
      | none => return min (size aw - apos) (size cw - cpos)
      | some (t, i) => readIndex (k.bufLast .ab) t i : Slot Nat)
    modCur fun k => { k with mat :=
      { k.mat with ai := bitsOf aw 7 0, apos := apos, ci := bitsOf cw 7 0, cpos := cpos, left := left } }))

/-- CSET (R269). -/
def execCset (o : Op) (s : State) : Out :=
  .next (s.slotOp (.cset o) o (do
    let r ← readRecord o.a
    let w := entWord r
    let t ← tensorIn (bitsOf (w 0) 7 0) .ab
    let e := t.fields
    rejectIf (bitsOf (w 1) 63 16 != 0 || (List.range 6).any (fun i => w (i + 2) != 0) || e.layout != 0 || e.ndm1 != 2
      || !arrayFormat t.format || (t.format.scaled && e.sz 0 % 64 != 0))
    checkTouch t.spans
    modCur fun k => { k with mat := { k.mat with cset := some (r, t) } }))

/-! ## WLD (R271) -/

/-- WLD resolved. -/
structure WldOp where
  src : Tens
  f : Fmt
  nb : Nat
  kb0 : Nat
  row0 : Nat
  base : Nat
  paired : Bool
  plan : MPlan
  reads : List (Nat × Nat)
  deriving Repr, Inhabited

/-- The granules of a WLD. -/
def WldOp.granules (w : WldOp) : Nat := w.nb * (fieldWidth w.f / 4)

/-- WLD resolved (R271). -/
def planWld (o : Op) : Slot WldOp := do
  let ws ← operandWords [o.a, o.b]
  let sw := ws.getD 0 0
  let bw := ws.getD 1 0
  rejectIf (bitsOf sw 31 30 != 0 || bitsOf bw 31 20 != 0)
  let t ← tensorIn (bitsOf sw 7 0) .ab
  let b ← tensorIn (bitsOf bw 7 0) .ws
  let f := b.format
  let nb := bitsOf bw 19 16 + 1
  let kb0 := bitsOf sw 29 24
  let row0 := bitsOf sw 23 8
  let fw := fieldWidth f
  let base := b.fields.base + 512 * fw * bitsOf bw 15 8
  let last := base + 512 * fw * nb - 1
  let paired := b.fields.layout == 2
  rejectIf (t.fmt != b.fmt || !arrayFormat f || !b.covers last)
  let top := min (64 * (kb0 + nb)) (t.fields.sz 0)
  let rows := fun n m => ((List.range m).map (row0 + n + ·)).filter fun r => decide (r < t.fields.rows)
  let reads := if 64 * kb0 < top then
      abRanges t (rows 0 64) kb0 (top - 64 * kb0)
        ++ (if paired && f.scaled then (rows 64 64).map fun r => (t.scaleAddr r kb0, t.scaleAddr r ((top - 1) / 64) + 1) else [])
    else []
  return ⟨t, f, nb, kb0, row0, base, paired,
    ⟨[.wsPort, .wrGran (base / 2048) (last / 2048)] ++ reads.map (fun r => .rdAb r.1 r.2), abTouch reads ++ [(.ws, base, last)]⟩,
    reads⟩

/-- A source element of a WLD: its bits and the origin of its sector; outside the tensor the zero encoding. -/
def WldOp.elem (w : WldOp) (x : Buf) (blk n k : Nat) : Nat × Option Origin :=
  let r := w.row0 + n
  let i0 := 64 * (w.kb0 + blk) + k
  if r < w.src.fields.rows ∧ i0 < w.src.fields.sz 0 then x.element (w.src.rowBit r i0) w.f.w else (0, none)

/-- The elements of granule q of a block: the field positions that it holds. -/
def WldOp.fields (w : WldOp) (x : Buf) (blk q : Nat) : List (Nat × Option Origin) :=
  let fw := fieldWidth w.f
  let per := 2048 * 8 / fw
  (List.range per).map fun i => let p := q * per + i
    w.elem x blk (p / 64) (p % 64)

/-- The write of granule q of a block (R256, R271). -/
def WldOp.granule (w : WldOp) (x : Buf) (blk q : Nat) : List BWrite :=
  let fw := fieldWidth w.f
  let l := w.fields x blk q
  let addr := w.base + 512 * fw * blk + 2048 * q
  let per := 256 / fw
  let marks := (List.range 64).filterMap fun sec =>
    (mergePoison (((l.drop (sec * per)).take per).map (·.2))).map fun o => (⟨.ws, addr + 32 * sec, [], some o⟩ : BWrite)
  ⟨.ws, addr, leBytes 2048 (packNat fw (l.map (·.1))), none⟩ :: marks

/-- The scale row of a block, as words of its first granule (R271); a block beyond the source's last has no scale, and writes
zero as a row outside the tensor does. -/
def WldOp.scales (w : WldOp) (x : Buf) (blk : Nat) : List (Nat × BitVec 16) :=
  if !w.f.scaled then []
  else (List.range (if w.paired then 128 else 64)).map fun n =>
    let r := w.row0 + n
    ((w.base + 512 * fieldWidth w.f * blk) / 2048 * 128 + n,
     if r < w.src.fields.rows ∧ w.kb0 + blk < w.src.fields.blocks then BitVec.ofNat 16 (x.scaleWord (w.src.scaleAddr r (w.kb0 + blk))) else 0)

/-- Log a granule that the segment first overwrites; it counts as 32 lines (14 R375, R377). -/
def logGranule (g : Nat) : Slot Unit := do
  let k ← curKern
  match k.seg with
  | none => return
  | some x =>
    let ids := (List.range 32).map (· + 2 ^ 20 + 32 * g)
    if x.lines.contains (2 ^ 20 + 32 * g) then return
    let snap := k.snapshot .ws (2048 * g) 2048
    let y := { x with
      lines := x.lines ++ ids, undo := x.undo ++ [snap.1], undoMarks := x.undoMarks ++ snap.2
      undoUe := x.undoUe ++ k.snapshotUe .ws (2048 * g) 2048
      undoScales := x.undoScales ++ (List.range 128).map fun i => (128 * g + i, Tab.get (0 : BitVec 16) k.scales (128 * g + i)) }
    if y.lines.length > 256 then throw (.segment 2)
    modCur fun z => { z with seg := some y }

/-- WLD (R271, R276): granule q is written at c + 2(q + 1). -/
def execWld (o : Op) (s : State) : Out :=
  .next (s.slotOp (.wld o) o (do
    let w ← planWld o
    checkTouch w.plan.touch
    for i in List.range w.granules do logGranule (w.base / 2048 + i)
    touchRanges .ab (counted w.reads)
    let k ← curKern
    let x := k.bufLast .ab
    let c := k.cyc
    let per := fieldWidth w.f / 4
    let s ← get
    let ds : List DWrite := (List.range w.granules).map fun i =>
      s.slotWrite ⟨c + 2 * (i + 1), .granule, w.granule x (i / per) (i % per), [], if i % per = 0 then w.scales x (i / per) else [],
        [], false, 0, 0, [], 0, 0⟩
    modCur fun y => { y with dw := y.dw ++ ds, mat := { y.mat with wldFree := c + 2 * w.granules } }
    addMarks (((List.range w.granules).map fun i => ⟨.granW, w.base / 2048 + i, w.base / 2048 + i, c + 2 * (i + 1) - 1, false⟩)
      ++ w.reads.map fun r => ⟨.abR, r.1, r.2, c + 2 * w.granules - 1, false⟩)))

/-! ## ACCZ, ACCST, ACCLD (R272-R275) -/

/-- ACCZ resolved. -/
def planAccz (o : Op) : Slot MPlan := do
  rejectIf (decide ((← curKern).tiles ≤ tileOf o))
  return ⟨[.wrTile (tileOf o)], [tileRange (tileOf o)]⟩

/-- ACCZ (R272). -/
def execAccz (o : Op) (s : State) : Out :=
  .next (s.slotOp (.accz o) o (do
    let p ← planAccz o
    checkTouch p.touch
    let t := tileOf o
    logWrite .xs (8192 * t) 8192
    let c := (← curKern).cyc
    delayWrites 2 .buffer [⟨.xs, 8192 * t, List.replicate 8192 0, none⟩]
    addMarks [⟨.tileW, t, t, c + 1, false⟩]))

/-- ACCST or ACCLD resolved: tile, rows, columns, first tensor row, column block, modes, and the tensor, or the
format and the first register of a lent bank. -/
structure StoreOp where
  tile : Nat
  rows : Nat
  cols : Nat
  row0 : Nat
  colb : Nat
  rm : Nat
  sat : Bool
  tens : Option Tens
  f : Fmt
  bank : Nat
  plan : MPlan
  ranges : List (Nat × Nat)
  deriving Repr, Inhabited

/-- The tensor rows and columns that a tile meets (R273): extent and byte ranges. -/
def storeTensor (n row0 rows colb cols : Nat) (withScale : Bool) : Slot (Tens × List (Nat × Nat)) := do
  let t ← tensorIn n .ab
  rejectIf (!extentOk t (row0 + rows - 1) (64 * colb) cols)
  let l := (List.range rows).flatMap fun i =>
    t.rowRanges (row0 + i) (64 * colb) (64 * colb + cols - 1)
      ++ (if withScale && t.format.scaled then [(t.scaleAddr (row0 + i) colb, t.scaleAddr (row0 + i) colb + 1)] else [])
  return (t, l)

/-- ACCST resolved (R273, R274). -/
def planAccst (o : Op) : Slot StoreOp := do
  let ws ← operandWords [o.a, o.b, o.m]
  let dw := ws.getD 0 0
  let fw := ws.getD 1 0
  let (rows, cols, dep) ← maskWord (ws.getD 2 0) false
  let tile := tileOf o
  let k ← curKern
  rejectIf (bitsOf fw 31 4 != 0 || decide (4 < bitsOf fw 2 0) || dep != 1 || decide (k.tiles ≤ tile))
  let rm := bitsOf fw 2 0
  let sat := bitsOf fw 3 3 == 1
  if bitsOf dw 31 31 = 1 then
    rejectIf (bitsOf dw 30 5 != 0 || !k.isLent (lentBase dw))
    let f ← (match Fmt.ofDesc (k.fmtDesc (bitsOf dw 3 0)) with | some f => pure f | none => illegal : Slot Fmt)
    rejectIf (!([2, 3, 4].contains f.kind || (f.kind == 0 && f.scaled)))
    return ⟨tile, rows, cols, 0, 0, rm, sat, none, f, lentBase dw, ⟨[.store, .rdTile tile], [tileRange tile]⟩, []⟩
  else
    rejectIf (bitsOf dw 30 30 != 0)
    let (t, l) ← storeTensor (bitsOf dw 7 0) (bitsOf dw 23 8) rows (bitsOf dw 29 24) cols true
    return ⟨tile, rows, cols, bitsOf dw 23 8, bitsOf dw 29 24, rm, sat, some t, t.format, 0,
      ⟨[.store, .rdTile tile] ++ l.map (fun r => .wrAb r.1 r.2), tileRange tile :: abTouch l⟩, l⟩

/-- The row of a tile that ACCST converts. -/
def accRow (x : Buf) (tile cols i : Nat) : List Nat :=
  (List.range cols).map fun j => x.accBits (elemAt (tile * 32 + i) j)

/-- One element converted (R273): its bits, and the origin of a poison that has no encoding in the format. -/
def accElement (f : Fmt) (rm : Nat) (sat : Bool) (bits : Nat) : Arith (Nat × Option Origin) := do
  if f.kind = 2 then return (bits, none)
  match ← roundTo f (decodeF .f32 bits) rm sat with
  | .bits n => return (n, none)
  | .poison g => return (poisonBits f g, if f.isFloat then none else some g)

/-- One row converted: the scale of a scaled format, and the elements. -/
def accConvert (f : Fmt) (rm : Nat) (sat : Bool) (l : List Nat) : Arith (Option Nat × List (Nat × Option Origin)) := do
  if f.scaled then
    let (s, el) ← quantise f rm sat (l.map (decodeF .f32))
    return (some s, el.map fun x => (x, none))
  else return (none, ← l.mapM (accElement f rm sat))

/-- The bytes that w bits at a bit address fall into: address, value, written bits. -/
def bitBytes (bit w v : Nat) : List (Nat × Nat × Nat) :=
  (List.range ((bit + w - 1) / 8 - bit / 8 + 1)).map fun i =>
    let x := v % 2 ^ w * 2 ^ (bit % 8) / 2 ^ (8 * i) % 256
    let m := (2 ^ w - 1) * 2 ^ (bit % 8) / 2 ^ (8 * i) % 256
    (bit / 8 + i, x, m)

/-- Bytes merged by address, the later value of a bit standing. -/
def mergeBytes (l : List (Nat × Nat × Nat)) : Tab (Nat × Nat) :=
  l.foldl (fun t x =>
    let old := Tab.get (0, 0) t x.1
    Tab.set t x.1 (old.1 % 256 - (old.1 &&& x.2.2) + (x.2.1 &&& x.2.2), old.2 ||| x.2.2)) []

/-- ACCST into AB (R273): the writes of all rows. A poisoned narrow element marks each sector that holds a bit of it
(04 R93; log 120: DESIGN CHOICE). -/
def StoreOp.abWrite (p : StoreOp) (t : Tens) (rows : List (Option Nat × List (Nat × Option Origin))) : DWrite :=
  let parts := ((List.range rows.length).zip rows).flatMap fun r =>
    let row := p.row0 + r.1
    (match r.2.1 with | some s => bitBytes (8 * t.scaleAddr row p.colb) 16 s | none => [])
      ++ ((List.range r.2.2.length).zip r.2.2).flatMap fun c => bitBytes (t.rowBit row (64 * p.colb + c.1)) p.f.w c.2.1
  let bytes := mergeBytes parts
  let marks := ((List.range rows.length).zip rows).flatMap fun r =>
    ((List.range r.2.2.length).zip r.2.2).flatMap fun c =>
      let b := t.rowBit (p.row0 + r.1) (64 * p.colb + c.1)
      (dedup [b / 256, (b + p.f.w - 1) / 256]).filterMap fun sec => c.2.2.map fun g => (⟨.ab, 32 * sec, [], some g⟩ : BWrite)
  ⟨0, .accst, (bytes.filter (fun b => b.2.2 == 255)).map (fun b => ⟨.ab, b.1, [BitVec.ofNat 8 b.2.1], none⟩) ++ marks,
   (bytes.filter (fun b => b.2.2 != 255)).map (fun b => (b.1, BitVec.ofNat 8 b.2.1, BitVec.ofNat 8 b.2.2)), [], [], false, 0, 0, [], 0, 0⟩

/-- ACCST into a lent bank (R274): the register of one row. -/
def lentRegister (f : Fmt) (r : Option Nat × List (Nat × Option Origin)) : VReg :=
  let w := if f.kind = 0 then f.w else if f.kind = 2 then 32 else 16
  let v := BitVec.ofNat 2048 (packNat w (r.2.map (·.1)) + r.1.getD 0 * 2 ^ 512)
  ⟨v, 0, v⟩

/-- ACCST (R273, R274): the tile is read at issue and the result delivered at c + 12. -/
def execAccst (o : Op) (s : State) : Out :=
  .next (s.slotOp (.accst o) o (do
    let p ← planAccst o
    checkTouch p.plan.touch
    for r in p.ranges do logWrite .ab r.1 (r.2 + 1 - r.1)
    touchRanges .xs ((List.range p.rows).map fun i => (elemAt (p.tile * 32 + i) 0, 4 * p.cols))
    let k ← curKern
    let x := k.bufLast .xs
    let (rows, fl) ← runArith (← get).issue.opnd 0 ((List.range p.rows).mapM fun i => accConvert p.f p.rm p.sat (accRow x p.tile p.cols i))
    let c := k.cyc
    let d : DWrite := match p.tens with
      | some t => { p.abWrite t rows with due := c + 12 }
      | none => ⟨c + 12, .accst, [], [], [], ((List.range p.rows).zip rows).map (fun r => (p.bank + r.1, lentRegister p.f r.2)), false, 0, 0, [], 0, 0⟩
    let d := (← get).slotWrite d
    modCur fun y => { y with dw := y.dw ++ [d], mat := { y.mat with storeFree := c + 8 } }
    addMarks (⟨.tileR, p.tile, p.tile, c + 8, false⟩ :: p.ranges.map fun r => ⟨.abW, r.1, r.2, c + 11, false⟩)
    fly 12 .flags false fl))

/-- ACCLD resolved (R275). -/
def planAccld (o : Op) : Slot StoreOp := do
  let ws ← operandWords [o.a, o.m]
  let sw := ws.getD 0 0
  let (rows, cols, dep) ← maskWord (ws.getD 1 0) false
  let tile := tileOf o
  rejectIf (bitsOf sw 31 30 != 0 || dep != 1 || decide ((← curKern).tiles ≤ tile))
  let (t, l) ← storeTensor (bitsOf sw 7 0) (bitsOf sw 23 8) rows (bitsOf sw 29 24) cols false
  rejectIf (!([2, 3, 4].contains t.format.kind))
  return ⟨tile, rows, cols, bitsOf sw 23 8, bitsOf sw 29 24, 0, false, some t, t.format, 0,
    ⟨[.store, .wrTile tile] ++ l.map (fun r => .rdAb r.1 r.2), abTouch l ++ [tileRange tile]⟩, l⟩

/-- An element widened to binary32 (R275). -/
def widen (v : FVal) : Arith Nat := do
  match ← roundTo .f32 v 0 false with
  | .bits n => return n
  | .poison g => return poisonBits .f32 g

/-- ACCLD (R275): the tile is written at c + 12. -/
def execAccld (o : Op) (s : State) : Out :=
  .next (s.slotOp (.accld o) o (do
    let p ← planAccld o
    checkTouch p.plan.touch
    logWrite .xs (8192 * p.tile) 8192
    touchRanges .ab (counted p.ranges)
    let k ← curKern
    let x := k.bufLast .ab
    match p.tens with
    | none => return
    | some t =>
      let (rows, _) ← runArith (← get).issue.opnd 0 ((List.range p.rows).mapM fun i => (List.range p.cols).mapM fun j =>
        widen (x.operand p.f (t.rowBit (p.row0 + i) (64 * p.colb + j))))
      let c := k.cyc
      delayWrites 12 .buffer (((List.range p.rows).zip rows).map fun r => ⟨.xs, elemAt (p.tile * 32 + r.1) 0, wordBytes r.2, none⟩)
      modCur fun y => { y with mat := { y.mat with storeFree := c + 8 } }
      addMarks (⟨.tileW, p.tile, p.tile, c + 11, false⟩ :: p.ranges.map fun r => ⟨.abR, r.1, r.2, c + 8, false⟩)))

/-! ## LEND and MWAIT (R265, R278) -/

/-- The first register of the bank that LEND names: vb 0b01, vd 0b11 (R259). -/
def lendBase (o : Op) : Nat := 32 * (o.a &&& 3).toNat

/-- A kernel with a bank lent or returned. -/
def Kern.setLent (k : Kern) (base : Nat) (v : Bool) : Kern :=
  { k with mat := if base = 32 then { k.mat with lentB := v } else { k.mat with lentD := v } }

/-- LEND (R265). -/
def execLend (o : Op) (s : State) : Out :=
  .next (s.slotOp (.lend o) o (do
    let k ← curKern
    let b := lendBase o
    if k.isLent b then illegal
    let busy := k.flights.any fun f =>
      match f.dst with | .vreg (some i) _ _ _ => decide (b ≤ i) && decide (i < b + 32) && decide (k.cyc < f.due) | _ => false
    if busy then trapWord 0x06 0
    modCur fun y => y.setLent b true))

/-- LEND.RET resolved: it waits for an outstanding delivery into the bank. -/
def planLendRet (o : Op) : Slot MPlan := return ⟨[.noDelivery (lendBase o) (lendBase o + 31)], []⟩

/-- LEND.RET (R265). -/
def execLendRet (o : Op) (s : State) : Out :=
  .next (s.slotOp (.lendRet o) o (do
    if !(← curKern).isLent (lendBase o) then illegal
    modCur fun y => y.setLent (lendBase o) false))

/-- The first cycle in which every mark has cleared and every ACCST delivery has landed (R278). -/
def Kern.matClear (k : Kern) : Nat :=
  max (k.mat.marks.foldl (fun a m => max a (m.last + 1)) 0)
    ((k.dw.filter fun d => d.kind == .accst).foldl (fun a d => max a d.due) 0)

/-- MWAIT (R278): the next bundle is held until then. -/
def execMwait (o : Op) (s : State) : Out :=
  .next (s.slotOp (.mwait o) o (modCur fun k => { k with mat := { k.mat with hold := k.matClear } }))

/-- The needs of a resolved operation; of one whose checks 1 and 2 of R258 fail, which reads and writes nothing, those of `rest`
only. -/
def needsOf {α : Type} (f : Slot α) (g : α → List MNeed) (rest : State → List MNeed) (s : State) : List MNeed :=
  match f s with | .ok (x, _) => g x | .error _ => rest s

/-- The index elements that an operation reads for check 1 of R258, by the function of its mask or count word. -/
def indexNeeds (o : Op) (places : Kern → Nat → List (Tens × Nat)) (s : State) : List MNeed :=
  needsOf (do return places (← curKern) ((← operandWords [o.a, o.b, o.m]).getD 2 0))
    (fun l => (indexRanges l).map fun r => .rdAb r.1 r.2) (fun _ => []) s

/-- What the scoreboard asks of an M-slot operation (R264, R267, R271, R273, R277): every multiplication waits for the array, every
WLD for the port, every ACCST and ACCLD for the store path. -/
def State.matNeeds (s : State) (i : Instr) : List MNeed :=
  match i with
  | .mma o => needsOf (planMma o) (·.plan.needs) (fun _ => [.array]) s
  | .mmag o => needsOf (planMmag o) (·.plan.needs) (fun s => .array :: indexNeeds o Kern.gatherPlaces s) s
  | .mconv o => needsOf (planMconv o) (·.plan.needs) (fun _ => [.array]) s
  | .gset o => indexNeeds o Kern.countPlace s
  | .wld o => needsOf (planWld o) (·.plan.needs) (fun _ => [.wsPort]) s
  | .accz o => needsOf (planAccz o) (·.needs) (fun _ => []) s
  | .accst o => needsOf (planAccst o) (·.plan.needs) (fun _ => [.store]) s
  | .accld o => needsOf (planAccld o) (·.plan.needs) (fun _ => [.store]) s
  | .lendRet o => needsOf (planLendRet o) (·.needs) (fun _ => []) s
  | _ => []

end Sys2Proof.Machine
end

