-- ==== Sys2Proof/Machine/Ego.lean ====
section
/-! DEFINITION. The E-slot operations on engines: EWR, ERD and every EGO with its checks (09 R243-R245, R252; 11 R301-R303,
R310; 12 R315-R318, R328; 16 R414, R415). -/

namespace Sys2Proof.Machine

/-! ## EWR and ERD (R243) -/

/-- Operations of a port not yet completed. -/
def Port.outstanding (p : Port) : Nat := (p.q.filter fun o => !o.done).length

/-- An operation of a port runs. -/
def Port.running (p : Port) : Bool := p.q.any fun o => o.started && !o.done

/-- EWR (R243). -/
def execEwr (o : Op) (s : State) : Out :=
  .next (s.slotOp (.ewr o) o (do
    let a ← readScalar o.a
    let e := (o.m.extractLsb' 0 3).toNat
    if a.tagged then trapWord 0x10 a.origin
    modCur fun k => k.modPort e fun p => { p with sh := Tab.put 0 p.sh (o.m.extractLsb' 3 4).toNat a.v }))

/-- Index 3 of the circuit engine (R310). -/
def Kern.circStatus (k : Kern) : Nat :=
  let eval := k.circP.q.find? fun o => o.started && !o.done && o.code == 0x21
  (match eval with | some o => o.id.toNat * 2 ^ 32 + 4 | none => 0)
    + (if k.circP.q.any fun o => o.started && !o.done && o.code == 0x22 then 8 else 0)
    + (if k.circ.loaded then 2 else 0) + (if k.circ.act then 1 else 0)

/-- The outstanding count in bits 8:4. -/
def Port.countWord (p : Port) : Nat := p.outstanding * 16

/-- A status index of an engine. -/
def Kern.erd (k : Kern) (e n : Nat) : Word :=
  let p := k.port e
  if n = 0 then p.xdone.setWidth 64
  else if n = 1 then p.last.setWidth 64
  else if e = 6 then (if n = 4 then wordOf p.countWord else Tab.get 0 p.recs n)
  else if n = 6 then wordOf (p.countWord + (if p.running then 1 else 0))
  else if e = 5 ∧ n = 3 then wordOf k.circStatus
  else Tab.get 0 p.recs n

/-- ERD (R243). -/
def execErd (o : Op) (s : State) : Out :=
  .next (s.slotOp (.erd o) o (do
    let e := (o.m.extractLsb' 0 3).toNat
    let n := (o.m.extractLsb' 3 4).toNat
    writeScalar o 2 (.plain ((← curKern).erd e n)) 0))

/-! ## What every EGO does -/

/-- ILLEGAL of an EGO: the slot word, and the first shadow register concerned (R245, R303, R318); a tensor's, at `egoTensor`. -/
def egoIllegal {α : Type} (reg : Nat) : Slot α := do
  trapWith 0x02 (wordOf ((← get).slotWord.toNat + reg * 2 ^ 48)) 0

/-- ILLEGAL at the first register whose test fails. -/
def egoReject (bad : List (Nat × Bool)) : Slot Unit :=
  match bad.find? (·.2) with
  | some (n, _) => egoIllegal n
  | none => return

/-- The shadow registers `lo` to 15 are zero. -/
def zeroFrom (sh : Tab Word) (lo : Nat) : List (Nat × Bool) :=
  ((List.range 16).filter (lo ≤ ·)).map fun n => (n, Tab.get 0 sh n != 0)

/-- A tensor that an EGO names, captured with its companions; one that fails R209, or lies in none of the buffers `bs`, traps ILLEGAL,
with what the operation's own rule or the general rules name as TVAL (04 R75; 08 R198, R209). -/
def egoTensor (reg n : Nat) (bs : List BufId) : Slot (List Tens) := do
  let k ← curKern
  match k.tensorVals n bs with
  | [] => return k.capture n
  | l => trapWith 0x02 (tensorTval (((← get).slotWord.toNat + reg * 2 ^ 48) :: l)) 0

/-- The byte ranges of a captured tensor and its companions, with their buffer (R207). -/
def footprint (ts : List Tens) : List (BufId × Int × Int) :=
  ts.flatMap fun t => (t.fields.ranges t.format).map fun r => (t.fields.buf, r.1, r.2)

/-- Every byte from lo to hi lies in one of the ranges. -/
def coversRange (l : List (BufId × Int × Int)) : Nat → Int → Int → Bool
  | 0, lo, hi => decide (hi < lo)
  | fuel + 1, lo, hi =>
    decide (hi < lo) ||
      match l.find? fun r => decide (r.2.1 ≤ lo) && decide (lo ≤ r.2.2) with
      | some r => coversRange l fuel (r.2.2 + 1) hi
      | none => false

/-- Two footprints share a byte. -/
def footprintsMeet (a b : List (BufId × Int × Int)) : Bool :=
  a.any fun x => b.any fun y => x.1 == y.1 && decide (x.2.1 ≤ y.2.2) && decide (y.2.1 ≤ x.2.2)

/-- The last checks of an EGO, its identifier, the flip of its regions, and the operation's place in the queue (R212,
R243, R245). With an open segment the operation is held (14 R376). -/
def launchEgo (o : Op) (e : Nat) (tens : List Tens) (more : List Nat) (cold : List (BufId × Nat × Nat)) : Slot Unit := do
  let k ← curKern
  let p := k.port e
  if 16 ≤ p.outstanding then egoIllegal 0
  let keys := dedup (coveredKeys tens ++ more)
  checkForeign e keys
  match (match k.coldTensor tens with
    | some x => some x
    | none => cold.findSome? fun r => (k.coldByte r.1 r.2.1 r.2.2).map fun a => (r.1, a)) with
  | some (b, a) => trapWith 0x07 (wordOf (coldTval b a)) 0
  | none => pure ()
  let id := p.last + 1
  let held := k.seg.isSome
  if held then holdOp (.ego e id)
  let s ← get
  let op : Eop := ⟨id, o.m.toNat, o.b.getLsbD 3, p.sh, tens, keys, (s.core k.core).pseq, k.cyc, held, false, false⟩
  modCur fun y => (y.giveRegions e keys).modPort e fun p => { p with last := id, q := p.q ++ [op] }
  writeScalar o 1 (.plain (id.setWidth 64)) 0

/-- A shadow register of an engine. -/
def shadow (e n : Nat) : Slot Nat := do return (Tab.get 0 ((← curKern).port e).sh n).toNat

/-! ## Copy transfers (R244, R245) -/

/-- The fields of the copy shadow set. -/
structure CopyRec where
  expand : Bool
  chk : Nat
  st : Nat
  dt : Nat
  cnt : List Nat
  len : Nat
  sstr : List Int
  dstr : List Int
  soff : Int
  doff : Int
  daddr : Nat
  bundles : Nat
  init : Nat
  deriving DecidableEq, Repr, Inhabited

/-- Six strides from three registers. -/
def sixStrides (r : Nat → Nat) (base : Nat) : List Int :=
  (List.range 6).map fun n => signExt 32 (bitsOf (r (base + n / 2)) (32 * (n % 2) + 31) (32 * (n % 2)))

/-- The shadow set read field by field. -/
def copyRec (r : Nat → Nat) : CopyRec :=
  { expand := bitsOf (r 0) 0 0 == 1
    chk := bitsOf (r 0) 5 4
    st := bitsOf (r 0) 15 8
    dt := bitsOf (r 0) 23 16
    cnt := (List.range 4).map (fun n => bitsOf (r 1) (16 * n + 15) (16 * n)) ++ [bitsOf (r 2) 15 0, bitsOf (r 2) 31 16]
    len := bitsOf (r 2) 44 32 + 1
    sstr := sixStrides r 3
    dstr := sixStrides r 6
    soff := signExt 64 (r 9)
    doff := signExt 64 (r 10)
    daddr := bitsOf (r 10) 10 0
    bundles := bitsOf (r 10) 22 12 + 1
    init := bitsOf (r 11) 31 0 }

/-- The lowest and the highest byte offset of a nest, without the length (R245). -/
def nestSpan (cnt : List Nat) (str : List Int) : Int × Int :=
  (cnt.zip str).foldl (fun (acc : Int × Int) x =>
    let v := (x.1 : Int) * x.2
    (acc.1 + min 0 v, acc.2 + max 0 v)) (0, 0)

/-- The registers of an endpoint that break the footprint and alignment rules. -/
def CopyRec.endpointBad (c : CopyRec) (ts : List Tens) (off : Int) (str : List Int) (al : Int) (offReg strReg : Nat) :
    List (Nat × Bool) :=
  let base := ((ts.headD default).fields.base : Int) + off
  let (lo, hi) := nestSpan c.cnt str
  (List.range 6).map (fun n => (strReg + n / 2, c.cnt.getD n 0 != 0 && str.getD n 0 % al != 0))
    ++ [(offReg, base % al != 0
      || !coversRange (footprint ts) (2 * ts.length) (base + lo) (base + hi + c.len - 1))]

/-- Order tests by register number. -/
def byRegister (l : List (Nat × Bool)) : List (Nat × Bool) :=
  (List.range 16).map fun n => (n, l.any fun x => x.1 == n && x.2)

/-- The checks of EGO.COPY before those of every EGO, and its tensors (R244, R245). -/
def planCopy (o : Op) : Slot (List Tens) := do
  let e := o.egoEngine
  let k ← curKern
  let sh := (k.port e).sh
  let r := fun n => (Tab.get 0 sh n).toNat
  let c := copyRec r
  egoReject (byRegister ([(0, bitsOf (r 0) 63 24 != 0 || bitsOf (r 0) 7 6 != 0 || bitsOf (r 0) 3 1 != 0 || c.chk == 3),
    (2, bitsOf (r 2) 63 45 != 0 || decide (c.len < 64) || decide (4096 < c.len)),
    (10, c.expand && (bitsOf (r 10) 63 23 != 0 || bitsOf (r 10) 11 11 != 0)),
    (11, bitsOf (r 11) 63 32 != 0)] ++ zeroFrom sh 12))
  let src ← egoTensor 0 c.st [.ab, .ws, .xs, .ns, .dm]
  let dst ← (if c.dt = 0xFF then return [] else egoTensor 0 c.dt [.ab, .ws, .xs, .ns, .dm])
  if c.expand != (c.dt == 0xFF) then egoIllegal 0
  if c.expand && (!k.isw || (List.range c.bundles).any fun i => !isAllotted k.res.is (c.daddr + i)) then egoIllegal 10
  let al : Int := if c.expand then 2 else 4
  egoReject (byRegister ((2, (c.len : Int) % al != 0) :: c.endpointBad src c.soff c.sstr al 9 3
    ++ (if c.expand then [] else c.endpointBad dst c.doff c.dstr al 10 6)))
  return src ++ dst

/-- EGO.COPY (R245). -/
def execEgoCopy (o : Op) (s : State) : Out :=
  .next (s.slotOp (.egoCopy o) o (do launchEgo o o.egoEngine (← planCopy o) [] []))

/-! ## Key-engine operations (R315-R318) -/

/-- The reserved bits of a key shadow register. -/
def keyReserved (n v : Nat) : Bool :=
  match n with
  | 0 => bitsOf v 63 48 != 0
  | 1 => bitsOf v 63 40 != 0
  | 2 => bitsOf v 63 40 != 0
  | 3 => bitsOf v 31 21 != 0 || bitsOf v 15 13 != 0 || bitsOf v 7 5 != 0
  | 4 => bitsOf v 63 48 != 0 || bitsOf v 31 30 != 0
  | 5 => bitsOf v 63 32 != 0
  | _ => v != 0

/-- What an operation takes in the fields of KE0: TA, TB, TO, TX, TH, TN. `none`: not used; else the layout required
and whether 0xFF means none; RULES requires TX and TN, and 0xFF traps (R317, R324). -/
def keyRoles (code : Nat) : List (Option (Nat × Bool)) :=
  let tn := some (4, true)
  match code with
  | 0x10 => [some (3, false), some (3, false), some (3, false), some (4, true), none, tn]
  | 0x11 => [some (3, false), some (3, false), some (3, false), some (4, true), none, tn]
  | 0x12 => [some (1, false), none, some (3, false), none, none, tn]
  | 0x13 => [some (3, false), none, some (4, false), none, none, tn]
  | 0x14 => [some (4, false), none, some (4, false), none, none, tn]
  | 0x15 => [some (3, false), none, none, none, some (4, false), tn]
  | 0x16 => [some (3, false), none, some (4, false), none, some (4, false), tn]
  | 0x17 => [some (3, false), none, some (4, false), some (4, false), some (4, false), some (4, false)]
  | _ => [some (0, false), none, some (4, false), none, none, tn]

/-- A tensor of a key-engine operation: in AB or device memory, with its layout (R317). -/
def keyTensor (reg n layout : Nat) : Slot (List Tens) := do
  let ts ← egoTensor reg n [.ab, .dm]
  if (ts.headD default).fields.layout ≠ layout then egoIllegal reg
  return ts

/-- The tensors of an operation in the order of KE0's fields; an unused field gives none. -/
def keyTensors (w0 : Nat) : Nat → List (Option (Nat × Bool)) → Slot (List (List Tens))
  | _, [] => return []
  | i, none :: t => do return [] :: (← keyTensors w0 (i + 1) t)
  | i, some (layout, may) :: t => do
    let n := bitsOf w0 (8 * i + 7) (8 * i)
    let x ← (if may && n == 0xFF then return [] else keyTensor 0 n layout)
    return x :: (← keyTensors w0 (i + 1) t)

/-- The value tensor of a captured KEYS tensor: its AUX0 companion (R317). -/
def valueTensor (ts : List Tens) : Option Tens :=
  match ts with
  | t :: u :: _ => if t.fields.layout = 3 then some u else none
  | _ => none

/-- A length field: a length, or an INDEX tensor to read it from (R315, R318). -/
def keyLength (n : Nat) : Slot (List Tens) := do
  let lt := bitsOf (← shadow 4 n) 39 32
  if lt = 0xFF then return [] else keyTensor n lt 4

/-- The operations that use a table. -/
def usesTable (code : Nat) : Bool := code == 0x15 || code == 0x16 || code == 0x17

/-- The checks of an EGO of the key engine, and its tensors (R318). -/
def planKey (o : Op) : Slot (List Tens) := do
  let code := o.m.toNat
  let sh := (← curKern).key.sh
  let r := fun n => (Tab.get 0 sh n).toNat
  let log2 := bitsOf (r 3) 20 16
  let two := code == 0x10 || code == 0x11
  egoReject (byRegister ((List.range 16).map (fun n => (n, keyReserved n (r n)))
    ++ [(3, (two && bitsOf (r 3) 1 0 == 3) || (usesTable code && (log2 == 0 || decide (16 < log2))))]))
  if code = 0x17 ∧ (bitsOf (r 0) 47 40 = 0xFF ∨ bitsOf (r 0) 31 24 = 0xFF) then egoIllegal 0
  let ts ← keyTensors (r 0) 0 (keyRoles code)
  let at_ := fun n => ts.getD n []
  let head := fun n => (at_ n).headD default
  if code = 0x18 then
    if (head 0).fields.ndm1 ≠ 0 || !([8, 16, 32, 64].contains (head 0).format.w) then egoIllegal 0
  if usesTable code then
    if (head 4).fields.buf ≠ .ab ∨ (head 4).fields.sz 0 < 2 * 2 ^ log2 then egoIllegal 0
  let vals := [valueTensor (at_ 0), valueTensor (at_ 1), valueTensor (at_ 2)]
  if vals.any fun v => match v with | some t => !([2, 6, 9].contains t.format.kind) | none => false then egoIllegal 0
  match valueTensor (at_ 2) with
  | none => pure ()
  | some v =>
    let ok := fun (x : Option Tens) => match x with | some t => t.fmt == v.fmt | none => false
    if two && !(ok (valueTensor (at_ 0)) && ok (valueTensor (at_ 1))) then egoIllegal 0
    if code = 0x12 && !ok (some (head 0)) then egoIllegal 0
  if code = 0x17 then
    let need := 27 * (bitsOf (r 4) 47 32 + 1)
    if (head 2).fields.sz 0 < need ∨ (head 3).fields.sz 0 < need then egoIllegal 0
  let la ← keyLength 1
  let lb ← (if two then keyLength 2 else return [])
  let ins := [at_ 0, at_ 1, at_ 4, la, lb]
  let psum := decide (code = 0x14) && (head 2).fields.base == (head 0).fields.base && (head 2).fields.buf == (head 0).fields.buf
  let hits := fun (n : Nat) => (List.range 5).any fun i =>
    !(psum && n == 2 && i == 0) && !(n == 4 && i == 2) && footprintsMeet (footprint (at_ n)) (footprint (ins.getD i []))
  if ([2, 3, 5] ++ (if code = 0x15 then [4] else [])).any hits then egoIllegal 0
  return ts.flatten ++ la ++ lb

/-- An EGO of the key engine (R318). -/
def egoKey (o : Op) : Slot Unit := do launchEgo o 4 (← planKey o) [] []

/-- EGO.MERGE (R320). -/
def execEgoMerge (o : Op) (s : State) : Out := .next (s.slotOp (.egoMerge o) o (egoKey o))
/-- EGO.INTER (R320). -/
def execEgoInter (o : Op) (s : State) : Out := .next (s.slotOp (.egoInter o) o (egoKey o))
/-- EGO.EXPAND (R321). -/
def execEgoExpand (o : Op) (s : State) : Out := .next (s.slotOp (.egoExpand o) o (egoKey o))
/-- EGO.HIST (R322). -/
def execEgoHist (o : Op) (s : State) : Out := .next (s.slotOp (.egoHist o) o (egoKey o))
/-- EGO.PSUM (R322). -/
def execEgoPsum (o : Op) (s : State) : Out := .next (s.slotOp (.egoPsum o) o (egoKey o))
/-- EGO.HBUILD (R323). -/
def execEgoHbuild (o : Op) (s : State) : Out := .next (s.slotOp (.egoHbuild o) o (egoKey o))
/-- EGO.HPROBE (R323). -/
def execEgoHprobe (o : Op) (s : State) : Out := .next (s.slotOp (.egoHprobe o) o (egoKey o))
/-- EGO.RULES (R324). -/
def execEgoRules (o : Op) (s : State) : Out := .next (s.slotOp (.egoRules o) o (egoKey o))
/-- EGO.NNZ (R325). -/
def execEgoNnz (o : Op) (s : State) : Out := .next (s.slotOp (.egoNnz o) o (egoKey o))

/-! ## Circuit-engine operations (R301-R303) -/

/-- The reserved bits of a circuit shadow register. -/
def circReserved (n v : Nat) : Bool :=
  match n with
  | 0 => bitsOf v 63 35 != 0
  | 1 => false
  | 2 => bitsOf v 63 16 != 0
  | 3 => bitsOf v 63 61 != 0 || bitsOf v 47 45 != 0 || bitsOf v 31 9 != 0
  | 4 => bitsOf v 63 8 != 0
  | _ => v != 0

/-- Check 1 of R303. -/
def circFields (bad : List (Nat × Bool)) : Slot Unit := do
  let sh := (← curKern).circP.sh
  egoReject (byRegister ((List.range 16).map (fun n => (n, circReserved n (Tab.get 0 sh n).toNat)) ++ bad))

/-- A tensor of a circuit operation (R302): DENSE, in its buffer, of one of the kinds (none: any), of its shape. -/
def circTensor (reg n : Nat) (b : BufId) (kinds : List Nat) (ndm1 : Option Nat) : Slot (List Tens) := do
  let ts ← egoTensor reg n [b]
  let t := ts.headD default
  if t.fields.layout ≠ 0 ∨ (kinds ≠ [] ∧ !kinds.contains t.format.kind)
      ∨ (ndm1.isSome ∧ ndm1 ≠ some t.fields.ndm1) then egoIllegal reg
  return ts

/-- The NS bytes of a kernel: every region flips with an operation other than PFLIP (R303). -/
def Kern.nsRange (k : Kern) : List (BufId × Nat × Nat) := if k.limit .ns = 0 then [] else [(.ns, 0, k.limit .ns - 1)]

/-- The end of a circuit EGO that flips the NS regions too. -/
def launchCirc (o : Op) (tens : List Tens) : Slot Unit := do
  let k ← curKern
  launchEgo o 5 tens (k.nsRange.flatMap fun r => regionKeys r.1 r.2.1 r.2.2) k.nsRange

/-- The checks of EGO.CLOAD, and its tensors (R302, R303). -/
def planCload : Slot (List Tens) := do
  circFields []
  let w ← shadow 5 2
  let obj ← circTensor 2 (bitsOf w 7 0) .dm [] none
  let sp ← (if bitsOf w 15 8 = 0xFF then return [] else circTensor 2 (bitsOf w 15 8) .dm [] none)
  return obj ++ sp

/-- EGO.CLOAD (R302-R304). -/
def execEgoCload (o : Op) (s : State) : Out :=
  .next (s.slotOp (.egoCload o) o (do launchCirc o (← planCload)))

/-- The checks of EGO.EVAL, and its tensors (R302, R303). -/
def planEval : Slot (List Tens) := do
  let w ← shadow 5 0
  let b ← shadow 5 1
  circFields [(1, bitsOf b 63 32 == 0)]
  let rows := bitsOf b 31 0 + bitsOf b 63 32
  let leaves ← circTensor 0 (bitsOf w 7 0) .ab [1, 2] (some 1)
  let outs ← circTensor 0 (bitsOf w 15 8) .ab [1, 2, 7, 10] (some 1)
  let rec_ ← (if bitsOf w 23 16 = 0xFF then return [] else circTensor 0 (bitsOf w 23 16) .ab [9] (some 0))
  let vals ← circTensor 0 (bitsOf w 31 24) .xs [] none
  if (leaves.headD default).fields.sz 1 < rows ∨ (outs.headD default).fields.sz 1 < rows then egoIllegal 1
  return leaves ++ outs ++ rec_ ++ vals

/-- EGO.EVAL (R302, R303, R305). -/
def execEgoEval (o : Op) (s : State) : Out :=
  .next (s.slotOp (.egoEval o) o (do launchCirc o (← planEval)))

/-- The checks of EGO.PUPD, and its tensor (R302, R303). -/
def planPupd : Slot (List Tens) := do
  circFields []
  let w ← shadow 5 3
  let src ← circTensor 3 (bitsOf w 7 0) .ab [1, 2] (some 0)
  if (src.headD default).fields.sz 0 < bitsOf w 60 48 + 1 then egoIllegal 3
  return src

/-- EGO.PUPD (R302, R303, R306). -/
def execEgoPupd (o : Op) (s : State) : Out :=
  .next (s.slotOp (.egoPupd o) o (do launchCirc o (← planPupd)))

/-- EGO.PFLIP (R303, R307): it covers no region. -/
def execEgoPflip (o : Op) (s : State) : Out :=
  .next (s.slotOp (.egoPflip o) o (do
    circFields []
    launchEgo o 5 [] [] []))

/-- The checks of EGO.CSTAT, and its tensor (R302, R303). -/
def planCstat : Slot (List Tens) := do
  circFields []
  let w ← shadow 5 4
  let t ← circTensor 4 (bitsOf w 7 0) .ab [9] (some 0)
  if (t.headD default).fields.sz 0 < 16 then egoIllegal 4
  return t

/-- EGO.CSTAT (R302, R303, R308). -/
def execEgoCstat (o : Op) (s : State) : Out :=
  .next (s.slotOp (.egoCstat o) o (do launchCirc o (← planCstat)))

/-! ## Link-engine operations (16 R414) -/

/-- The reserved bits and values of a link shadow register. -/
def linkReserved (n v : Nat) : Bool :=
  match n with
  | 0 => bitsOf v 63 58 != 0 || bitsOf v 49 49 != 0 || bitsOf v 15 13 != 0 || bitsOf v 11 11 != 0
      || decide (4 < bitsOf v 10 8) || bitsOf v 57 56 == 3
  | 1 => bitsOf v 63 49 != 0
  | 2 => bitsOf v 63 32 != 0 || bitsOf v 31 0 % 4 != 0 || bitsOf v 31 0 == 0
  | _ => v != 0

/-- The checks of an EGO of the link engine, and its tensor (R414). -/
def planLink (o : Op) : Slot (List Tens) := do
  let s ← get
  let sh := (s.kern s.issue.kid).link.sh
  let r := fun n => (Tab.get 0 sh n).toNat
  let port := bitsOf (r 0) 10 8
  let node := bitsOf (r 0) 48 32
  let put := bitsOf (r 0) 12 12 == 1
  let send := o.m.toNat == 0x30
  let radd := o.m.toNat == 0x32
  egoReject (byRegister ((List.range 16).map (fun n => (n, linkReserved n (r n)))
    ++ [(0, (!send && put) || (decide (port < 3) && node != 0) || (decide (3 ≤ port) && node == s.hub.nodeid.toNat)),
      (1, send && put && bitsOf (r 1) 48 0 % 4 != 0)]))
  let ts ← egoTensor 0 (bitsOf (r 0) 7 0)
    (.ab :: (if send && !Config.lsendReadsXs then [] else [.xs]) ++ if radd then [] else [.dm])
  let t := ts.headD default
  if t.fields.layout ≠ 0 then egoIllegal 0
  let last := (footprint ts).foldl (fun (m : Int) x => max m x.2.2) (-1)
  if last + 1 - t.fields.base < bitsOf (r 2) 31 0 then egoIllegal 2
  let kind := match bitsOf (r 0) 57 56 with | 0 => 2 | 1 => 4 | _ => 6
  if radd && t.format.kind != kind then egoIllegal 0
  return ts

/-- An EGO of the link engine (R414). -/
def egoLink (o : Op) : Slot Unit := do launchEgo o 6 (← planLink o) [] []

/-- EGO.LSEND (R415). -/
def execEgoLsend (o : Op) (s : State) : Out := .next (s.slotOp (.egoLsend o) o (egoLink o))
/-- EGO.LRECV (R415). -/
def execEgoLrecv (o : Op) (s : State) : Out := .next (s.slotOp (.egoLrecv o) o (egoLink o))
/-- EGO.LRADD (R415). -/
def execEgoLradd (o : Op) (s : State) : Out := .next (s.slotOp (.egoLradd o) o (egoLink o))

end Sys2Proof.Machine
end

