-- ==== Sys2Proof/Machine/Clock.lean ====
section
/-! DEFINITION. The clock: which domains and cores count a cycle, and what one cycle of the 600 MHz clock changes
(06 R152, R161, R167; 01 R3; 15 R395, R396). -/

namespace Sys2Proof.Machine

/-- A site. -/
def State.site? (s : State) (i : Nat) : Option Site := Tab.get? s.sites i

/-- The state with one site changed. -/
def State.modSite (s : State) (i : Nat) (f : Site → Site) : State :=
  match s.site? i with
  | some x => { s with sites := Tab.set s.sites i (f x) }
  | none => s

/-- A core of the domain stands in a debug stop. -/
def State.debugStopped (s : State) (d : Nat) : Bool := s.kerns.any fun k => k.dom == d && k.ctl.wait == .debug

/-- The site of a domain runs it, and switches to no other. -/
def State.resident (s : State) (d : Nat) (x : Dom) : Bool :=
  match s.site? x.site with
  | some t => t.running == some d && t.switch == 0
  | none => false

/-- The domain stands at a pre-emption point with every core, or its site has chosen another: it waits to be saved (06 R169;
15 R395). -/
def State.parked (s : State) (d : Nat) (x : Dom) : Bool :=
  (x.preempt && s.kerns.all fun k => k.dom != d || k.ctl.stopped || k.ctl.halted)
    || (match s.site? x.site with | some t => t.running == some d && t.chosen.isSome | none => false)

/-- The domain is not stopped in this cycle, but for a freeze (06 R152). -/
def State.domRuns (s : State) (d : Nat) : Bool :=
  match s.dom? d with
  | none => false
  | some x => x.started && !x.hard && x.throttle == 0 && s.resident d x && !s.debugStopped d && !s.parked d x

/-- The domain's count has reached the cycle from which a freeze stops it (06 R161). -/
def Dom.frozen (x : Dom) : Bool := match x.freeze with | some f => decide (f.1 ≤ x.dcyc) | none => false

/-- A core counts this cycle: its domain runs, nothing stops the core alone, and a freeze stops only cores that run no
handler of it; after a release a core goes on at its own DCYC, or when the pause of a rewind that outlasts it is over (06 R161). -/
def State.coreRuns (s : State) (k : Kern) : Bool :=
  s.domRuns k.dom && k.ctl.pause == 0 && !k.ctl.dead
    && match s.dom? k.dom with
      | none => false
      | some x => (k.ctl.handler && k.ctl.froze)
          || (!x.frozen && (match k.ctl.resumeAt with | none => true | some c => decide (c ≤ x.dcyc)))

/-- A core of a domain that waits to be saved counts on until what is in flight has landed and its wakes have ended (15
R395; 08 R205). -/
def State.drains (s : State) (k : Kern) : Bool :=
  match s.dom? k.dom with
  | none => false
  | some x => x.started && !x.hard && s.resident k.dom x && s.parked k.dom x && !k.ctl.dead
      && (!k.flights.isEmpty || !k.dw.isEmpty || k.anyWaking)

/-- A trapped core counts the four cycles from its RFT to the re-issue that releases the freeze (14 R357; 06 R161). -/
def State.returning (s : State) (k : Kern) : Bool :=
  s.domRuns k.dom && k.ctl.pause == 0 && !k.ctl.dead && !k.ctl.handler && k.ctl.resumeAt == some k.ctl.trapDcyc
    && match s.dom? k.dom with | some x => x.release.isSome && x.frozen | none => false

/-- A detected error of the open segment is to be handled (14 R379). -/
def Kern.inError (k : Kern) : Bool := match k.seg with | some g => g.error | none => false

/-- A core that a freeze stops and that is to rewind counts on until its results have landed (14 R379 step 1; 06 R159). -/
def State.settles (s : State) (k : Kern) : Bool :=
  s.domRuns k.dom && k.ctl.pause == 0 && !k.ctl.dead && k.inError && (!k.flights.isEmpty || !k.dw.isEmpty)

/-- A cycle of a core that cannot issue in it: what is in flight comes nearer. -/
def Kern.countOn (k : Kern) : Kern :=
  { k with cyc := k.cyc + 1, ctl := { k.ctl with tried := false }, spr := { k.spr with fpLanded := 0 } }

/-- A cycle of a core that runs. -/
def Kern.tick (k : Kern) : Kern :=
  { k with
    cyc := k.cyc + 1
    ctl := { k.ctl with gap := k.ctl.gap - 1, tried := false, resumeAt := none }
    spr := { k.spr with fpLanded := 0 } }

/-- A cycle of a domain that is not stopped, but for a freeze: its count, the restart after its last vote, the release
of a freeze. -/
def Dom.tick (x : Dom) : Dom :=
  let x := if x.frozen then x
    else { x with dcyc := x.dcyc + 1, restart := x.restart.map (· - 1), ran := x.ran + 1 }
  match x.release with
  | some (n + 2) => { x with release := some (n + 1) }
  | some _ => { x with release := none, freeze := none, dcyc := match x.freeze with | some f => f.2 | none => x.dcyc }
  | none => x

/-- As a freeze is released, the cores that did not trap go on at the DCYC at which it stopped them (06 R161). -/
def State.resumePartners (s : State) (d at_ : Nat) : State :=
  { s with kerns := s.kerns.map fun k =>
    if k.dom = d ∧ k.ctl.resumeAt = none then { k with ctl := { k.ctl with resumeAt := some at_ } } else k }

/-- One cycle of a domain. -/
def State.tickDom (s : State) (e : Nat × Dom) : State :=
  let (d, x) := e
  if s.domRuns d then
    let s := match x.release, x.freeze with
      | some n, some f => if n ≤ 1 then s.resumePartners d f.1 else s
      | _, _ => s
    let s := s.modDom d fun x => x.tick
    if x.frozen then s else s.modSite x.site fun t => { t with slice := t.slice - 1 }
  else s.modDom d fun x => { x with throttle := x.throttle - 1 }

/-- One cycle of the 600 MHz clock. -/
def State.tick (s : State) : State :=
  let kerns := s.kerns.map fun k =>
    if s.coreRuns k || s.drains k then k.tick
    else if s.returning k || s.settles k then k.countOn
    else { k with ctl := { k.ctl with tried := false, pause := if s.domRuns k.dom then k.ctl.pause - 1 else k.ctl.pause } }
  let t := { s with kerns := kerns }
  let t := s.doms.foldl State.tickDom t
  { t with
    sites := t.sites.map fun e =>
      if ((s.site? e.1).getD e.2).switch = 0 then e else (e.1, { e.2 with switch := e.2.switch - 1 })
    recvs := t.recvs.map fun r => if (s.kern? r.k).isSome then { r with waited := r.waited + 1 } else r
    hub := { t.hub with time := t.hub.time + 1 } }

end Sys2Proof.Machine
end

