-- ==== Sys2Proof/Machine/Landing.lean ====
section
/-! DEFINITION. What falls due inside a core in a given cycle: results land (05 R104), delayed buffer writes take effect
(08 R217; 10 R264, R271, R273), units wake (08 R203), exchange entries arrive (06 R158), stream generators fetch (08 R217),
and the loop engine decides at a pass boundary (06 R147). -/

namespace Sys2Proof.Machine

/-! ## The signature of a segment (14 R379) -/

/-- A register write-back as a number. -/
def FDest.code (d : FDest) : Nat :=
  match d with
  | .sreg (some i) r => 1 + 8 * (i + 128 * (r.v.toNat + 2 ^ 64 * ((if r.tl then 1 else 0) + (if r.th then 2 else 0))))
  | .vreg (some i) r b t => 2 + 8 * (i + 128 * (b.toNat + 2 ^ 256 * (t.toNat + 2 ^ 64 * (r.tags.toNat + 2 ^ 64 * r.v.toNat))))
  | .pred i p => 3 + 8 * (i + 16 * (p.org.toNat + 2 ^ 15 * ((if p.v then 1 else 0) + (if p.tag then 2 else 0))))
  | .mask i m sel => 4 + 8 * (i + 8 * (m.org.toNat + 2 ^ 15 * (sel.toNat + 2 ^ 64 * (m.tags.toNat + 2 ^ 64 * m.v.toNat))))
  | _ => 0

/-- A buffer write as a number. -/
def BWrite.code (w : BWrite) : Nat :=
  5 + 8 * (w.buf.code + 8 * (w.addr + 2 ^ 49 * ((match w.mark with | some o => o.toNat + 1 | none => 0) + 2 ^ 16 * leNat w.bytes)))

/-! ## Results (05 R104, R107, R110; 04 R85) -/

/-- The results of a kernel that are due. -/
def Kern.dueFlights (k : Kern) : List Flight := k.flights.filter fun f => decide (f.due ≤ k.cyc)

/-- Results land: each in its register and its latch, in the order of issue; of two masks that meet V1's is kept (07 R176). -/
def Kern.landAll (k : Kern) : Kern :=
  let due := k.dueFlights
  let k := { k with flights := k.flights.filter fun f => !decide (f.due ≤ k.cyc) }
  (due.filter fun f => f.dst.code != 0).foldl (fun y f => y.signature (8 * f.iss + f.slot) [f.dst.code])
    (due.foldl (fun y f => if f.overridden due then y.raise f.flags else landFlight f y) k)

/-- Of results that land together with enabled conditions, the one of the lowest slot (04 R85); of two of one slot the one issued
earlier (log 114: DESIGN CHOICE). -/
def fpReported (ctl : BitVec 5) (l : List Flight) : Option Flight :=
  l.foldl (fun (b : Option Flight) f =>
    if f.flags &&& ctl = 0 then b
    else match b with | none => some f | some x => if f.slot < x.slot then some f else b) none

/-- RESULT_WRITEBACK (05 R104): an enabled FP condition is owed to the program, or is a context fault of a handler's
instruction (04 R85). -/
def execResultWriteback (k : Nat) (s : State) : Out :=
  match s.kern? k with
  | none => .next s
  | some x =>
    let due := x.dueFlights
    let s := s.modKern k Kern.landAll
    match fpReported x.spr.fpctl (due.filter (·.hnd)), fpReported x.spr.fpctl (due.filter (!·.hnd)) with
    | some f, _ => .next (s.uncontained k 0x02 0x18 (fpTval f) 0 (pcValue x.ctl.pc 0) 0 0)
    | none, some f =>
      .next (s.modKern k fun y => { y with spr := { y.spr with fpOwed := y.spr.fpOwed ++ [fpTval f] } })
    | none, none => .next s

/-! ## Delayed writes -/

/-- What a delayed write makes of a kernel's scale rows and lent registers. -/
def Kern.deliver (k : Kern) (d : DWrite) : Kern :=
  { k with
    scales := d.scales.foldl (fun t e => Tab.put 0 t e.1 e.2) k.scales
    vregs := d.regs.foldl (fun t e => Tab.put VReg.zero t e.1 e.2) k.vregs }

/-- The bytes that a delayed write leaves: whole bytes, and bytes merged with what the buffer holds. -/
def Kern.allWrites (k : Kern) (d : DWrite) : List BWrite :=
  d.writes ++ d.bits.map fun e => ⟨.ab, e.1, [mergeBits (k.ab.mem.byte e.1) e.2.1 e.2.2], none⟩

/-- A delayed write takes effect; one whose checksum fails is a detected pipeline error (10 R279). -/
def State.applyWrite (s : State) (k : Nat) (d : DWrite) : State :=
  let ws := (s.kern k).allWrites d
  let s := s.writeBufs k (.late k d.loc d.insn d.opnd d.made) d.writes d.bits
  let s := s.modKern k fun y => (y.deliver d).signature d.key
    (ws.map BWrite.code ++ d.scales.map (fun e => 7 + 8 * (e.1 + 2 ^ 16 * e.2.toNat)) ++ d.regs.map fun e => 6 + 8 * (e.1 + 128 * e.2.v.toNat))
  if d.bad then s.pipelineError k else s

/-- The earliest due cycle among writes. -/
def earliest : List DWrite → Option Nat
  | [] => none
  | d :: t => some (match earliest t with | some n => min d.due n | none => d.due)

/-- The delayed write of a kernel that takes effect next, if it is due: the earliest, and of equals the first issued, an XRECV's
last. -/
def Kern.dueWrite (k : Kern) : Option (Nat × DWrite) :=
  match earliest k.dw with
  | none => none
  | some n =>
    if n ≤ k.cyc then
      match findAt (fun d => d.due == n && d.kind != .exchange) 0 k.dw with
      | some d => some d
      | none => findAt (fun d => d.due == n) 0 k.dw
    else none

/-- The bytes that a write of a buffer names; a mark stands for an element of 4. -/
def BWrite.span (w : BWrite) : Nat := if w.bytes.isEmpty then 4 else w.bytes.length

/-- Two writes meet in a byte. -/
def BWrite.meets (w v : BWrite) : Bool :=
  w.buf == v.buf && decide (w.addr < v.addr + v.span) && decide (v.addr < w.addr + w.span)

/-- A delayed write reaches an element. -/
def DWrite.reaches (d : DWrite) (w : BWrite) : Bool :=
  d.writes.any w.meets || d.bits.any fun b => w.buf == .ab && decide (w.addr ≤ b.1) && decide (b.1 < w.addr + w.span)

/-- The other writes an element of an XRECV in the same cycle (06 R157). -/
def DWrite.contests (d e : DWrite) : Bool := d.kind != .exchange && e.kind == .exchange && e.due == d.due && e.writes.any d.reaches

/-- The elements of an XRECV that stay the exchange's: of those that d reaches too, each by a free choice from n on (06 R157). -/
def DWrite.keep (d : DWrite) : Nat → List BWrite → List BWrite
  | _, [] => []
  | n, w :: t => if d.reaches w && Config.coin n then d.keep (n + 1) t else w :: d.keep (n + 1) t

/-- Each element that d and an XRECV write at the end of one cycle holds one of the two values, by a free choice. -/
def State.contest (s : State) (k : Nat) (d : DWrite) : State :=
  if (s.kern k).dw.any d.contests then
    { s.modKern k fun y => { y with dw := y.dw.map fun e => if d.contests e then { e with writes := d.keep s.choices e.writes } else e } with
      choices := s.choices + 64 }
  else s

/-- The delayed write that is due takes effect, when the event is that of its kind. -/
def State.delayed (s : State) (k : Nat) (kind : DKind → Bool) : State :=
  match (s.kern k).dueWrite with
  | none => s
  | some (i, d) =>
    if kind d.kind then ((s.modKern k fun y => { y with dw := dropAt y.dw i }).contest k d).applyWrite k d else s

/-- STREAM_STORE_WRITE (08 R217). -/
def execStreamStoreWrite (k : Nat) (s : State) : Out := .next (s.delayed k fun x => x == .stream)
/-- MATRIX_RESULT_VALID (10 R264). -/
def execMatrixResultValid (k : Nat) (s : State) : Out := .next (s.delayed k fun x => x == .matrix)
/-- BUFFER_WRITE_TAKES_EFFECT (10 R272, R275; 07 R193; 06 R157): ACCZ, ACCLD, ACCWR, XRECV. -/
def execBufferWriteTakesEffect (k : Nat) (s : State) : Out := .next (s.delayed k fun x => x == .buffer || x == .exchange)
/-- WLD_GRANULE_WRITE (10 R271). -/
def execWldGranuleWrite (k : Nat) (s : State) : Out := .next (s.delayed k fun x => x == .granule)
/-- ACCST_DELIVERY (10 R273, R274). -/
def execAccstDelivery (k : Nat) (s : State) : Out := .next (s.delayed k fun x => x == .accst)

/-- The event that a delayed write is. -/
def DKind.event (d : DKind) (k : Nat) : Instr :=
  match d with
  | .stream => .streamStoreWrite k
  | .buffer | .exchange => .bufferWriteTakesEffect k
  | .matrix => .matrixResultValid k
  | .granule => .wldGranuleWrite k
  | .accst => .accstDelivery k

/-! ## Units, the exchange, streams, loops -/

/-- A waking unit has waited its 96 cycles. -/
def wakeDue (cyc : Nat) (u : UnitSt) : Bool := match u with | .waking c => decide (c ≤ cyc) | _ => false

/-- BANK_WAKE_DONE (08 R203). -/
def execBankWakeDone (k : Nat) (s : State) : Out :=
  .next (s.modKern k fun y => { y with units := y.units.filter fun u => !wakeDue y.cyc u.2 })

/-- The first entry in flight whose arrival the domain's count has reached, and the core's own after a freeze (06 R157, R158); a
freeze lets no later one in (06 R161). -/
def State.arriving (s : State) (k : Kern) : Option (Nat × XEntry) :=
  match s.dom? k.dom with
  | none => none
  | some d =>
    findAt (fun e => e.st == .flying && decide (e.arr ≤ d.dcyc) && decide (e.arr ≤ s.ownDcyc k)
      && (match d.freeze with | some f => decide (e.arr < f.1) | none => true)) 0 k.inbox

/-- XENTRY_ARRIVAL (06 R158): an entry that meets 8 held ones is discarded, and the trap is owed. -/
def execXentryArrival (k : Nat) (s : State) : Out :=
  match s.kern? k with
  | none => .next s
  | some x =>
    match s.arriving x with
    | none => .next s
    | some (i, e) =>
      if 8 ≤ (x.inbox.filter fun y => y.st != .flying).length then
        .next (s.modKern k fun y => { y with inbox := dropAt y.inbox i, ctl := { y.ctl with xOwed := y.ctl.xOwed ++ [e.src] } })
      else .next (s.modKern k fun y => { y with inbox := modifyAt (fun z => { z with st := .arrived }) y.inbox i })

/-- STREAM_FETCH (08 R217): the index elements first, where level 3 is indirect. -/
def execStreamFetch (k st : Nat) (s : State) : Out :=
  match s.kern? k with
  | none => .next s
  | some x =>
    if x.indexDue st then .next (s.readIndex k st)
    else if x.fetchDue st then .next (s.fetchPop k st) else .next s

/-- LOOP_PASS (06 R147-R150): the next pass, or the exit, which is a group switch. -/
def execLoopPass (k : Nat) (s : State) : Out :=
  match s.kern? k with
  | none => .next s
  | some x =>
    if x.ctl.boundary = false ∨ x.ctl.handler = true then .next s
    else
      match x.ctl.inner with
      | none => .next (s.modKern k fun y => { y with ctl := { y.ctl with boundary := false } })
      | some l =>
        let (m, out) := l.boundary (s.preempting x)
        .next (s.modKern k fun y =>
          let y := match out with | some _ => y.groupSwitch | none => y
          { y with ctl := { y.ctl.setInner m with
            boundary := false
            pc := match out with | some t => BitVec.ofNat 11 t | none => m.start } })

end Sys2Proof.Machine
end

