-- ==== Sys2Proof/Machine/Issue.lean ====
section
/-! DEFINITION. The issue of a bundle (06 R140): what is taken before it (14 R359, R360; 06 R163, R169), what holds it (05 R106,
R135, R137; 08 R217; 10 R277, R278; 14 R378), its header (03 R48), the exchange roles of CKPT (06 R157, R158), the opening
of a segment (14 R374, R375), and the restart after SYNC (06 R154). -/

namespace Sys2Proof.Machine

/-! ## Where a core stands -/

/-- The bundle at the program counter. -/
def State.nextBundle (s : State) (k : Kern) : BitVec 512 :=
  let a := k.ctl.pc.toNat
  match Tab.get? (s.core k.core).old a with
  | some b => if Config.oldFetch k.kid k.ctl.fetches then b else Tab.get 0 (s.core k.core).is a
  | none => Tab.get 0 (s.core k.core).is a

/-- The wait for a SYNC, a YIELD or a debugger, which other events end. -/
def Wait.parked (w : Wait) : Bool := match w with | .sync _ => true | .yield _ => true | .debug => true | _ => false

/-- A wait of R162 that is not over. -/
def Kern.waiting (k : Kern) : Bool :=
  match k.ctl.wait with
  | .waitx e id => !serialLe id (k.port e).xdone
  | .waito n => (k.entryKeys n).any fun key => Tab.get 0 k.own key != 0
  | .waitb => k.anyWaking
  | _ => false

/-- The core would issue a bundle in this cycle, or is in a wait of R162 that would let it, if nothing were taken before it and
nothing held it. -/
def State.atBundle (s : State) (k : Kern) : Bool :=
  !s.issue.active && s.coreRuns k && k.ctl.gap == 0 && !k.ctl.tried && !k.ctl.halted && !k.ctl.stopped
    && !(k.ctl.boundary && !k.ctl.handler && k.ctl.wait == .none) && !k.ctl.wait.parked && !k.inError

/-- A rendezvous bundle: CKPT with SYNC in the C slot (06 R154). -/
def isRendezvous (b : BitVec 512) : Bool :=
  hdrCkpt (bundleHeader b) && hdrPresent (bundleHeader b) 0 && slotOpc (bundleSlot b 0) == 0x020

/-- The segment's own opening bundle is next, as at the start of a rerun. -/
def Seg.opening (g : Seg) : Bool := g.byBundle && g.count == 0

/-- The core waits at a YIELD whose site has chosen another domain. -/
def State.switchesOut (s : State) (k : Kern) : Bool :=
  (match k.ctl.wait with | .yield _ => true | _ => false)
    && match s.dom? k.dom with
      | some x => (match s.site? x.site with | some t => t.running == some k.dom && t.chosen.isSome | none => false)
      | none => false

/-- The core stands before a CKPT bundle that would close its open segment and is no rendezvous. -/
def State.atCkpt (s : State) (k : Kern) (g : Seg) : Bool :=
  k.ctl.slot == 0 && k.ctl.wait == .none && !(k.ctl.boundary && !k.ctl.handler)
    && hdrCkpt (bundleHeader (s.nextBundle k)) && !isRendezvous (s.nextBundle k) && !g.opening

/-- The core stands where its open segment closes (14 R374): before a CKPT bundle that is no rendezvous, which may not close one
while a core of the domain holds an exchange (06 R159), after the restart of a rendezvous, at a yield switch, at a stop, or
halted. -/
def State.closing (s : State) (k : Kern) : Bool :=
  match k.seg with
  | none => false
  | some g =>
    k.ctl.gap == 0 && !g.error
      && (k.ctl.halted || k.ctl.stopped || k.ctl.segDue.isSome || s.switchesOut k
        || (s.atCkpt k g && !s.exchanging k.dom))

/-- A CKPT bundle that is no rendezvous would close the segment of a domain that holds an exchange (06 R159; 14 R377). -/
def State.cutsExchange (s : State) (k : Kern) : Bool :=
  match k.seg with
  | none => false
  | some g => k.ctl.segDue.isNone && s.atCkpt k g && s.exchanging k.dom

/-- The core stands before the rendezvous bundle that will close its open segment: the bundle holds its issue, and a rerun
stops there; the segment itself commits at the restart (06 R154; 14 R378, R379). -/
def State.preClosing (s : State) (k : Kern) : Bool :=
  match k.seg with
  | none => false
  | some g =>
    k.ctl.gap == 0 && !g.error && k.ctl.slot == 0 && k.ctl.wait == .none && !k.ctl.halted && !k.ctl.stopped
      && !(k.ctl.boundary && !k.ctl.handler) && k.ctl.segDue.isNone && isRendezvous (s.nextBundle k)

/-- A register, a predicate, a mask or a latch whose check bits contradict it (05 R111, R113; 07 R170, R176). -/
def Kern.mismatch (k : Kern) : Bool :=
  (k.regs.any fun r => detects (r.2.v ^^^ r.2.chk)) || (k.vregs.any fun r => vdetects r.2.v r.2.chk)
    || (k.preds.any fun p => p.2.v != p.2.chk) || (k.masks.any fun m => detects (m.2.v ^^^ m.2.chk))
    || (k.lat ++ k.latSaved).any fun l => match l.2 with
        | .sc v _ _ c => detects (v ^^^ c)
        | .ve r => vdetects r.v r.chk

/-- A rerun of the open segment is under way. -/
def Kern.inRerun (k : Kern) : Bool := match k.seg with | some g => g.rerun == 1 || g.rerun == 2 | none => false

/-- Every result of the kernel has landed, delayed writes included (14 R378). -/
def Kern.landed (k : Kern) : Bool := k.flights.isEmpty && k.dw.isEmpty && k.regs.all fun r => !r.2.pend

/-! ## Taken before a bundle (14 R359) -/

/-- The bundle is a pre-emption point: LDEAD, or the LOOP bundle that a suspended loop reaches (06 R150, R169). -/
def State.preemptionPoint (s : State) (k : Kern) : Bool :=
  let b := s.nextBundle k
  let h := bundleHeader b
  let level := if k.ctl.lc0.active then k.ctl.lc1 else k.ctl.lc0
  k.ctl.slot == 0 && (hdrLdead h || (hdrPresent h 0 && slotOpc (bundleSlot b 0) == 0x010
    && level.susp && !level.active && decide (level.start.toNat = k.ctl.pc.toNat + 1)))

/-- A completion interrupt may be taken (06 R163). -/
def Kern.cuiReady (k : Kern) : Bool := k.ctl.cuien && !k.ctl.cui.isEmpty && !k.ctl.handler

/-- What is taken before the bundle that the core would issue. -/
def State.before (s : State) (k : Kern) : Option Instr :=
  if !s.atBundle k then none
  else if k.waiting then (if k.cuiReady then some (.cui k.kid) else none)
  else if k.ctl.wait != .none || k.ctl.handler then none
  else if !k.spr.fpOwed.isEmpty then some (.fpTrap k.kid)
  else if k.ctl.stepOwed then some (.step k.kid)
  else if k.cuiReady && hdrIwin (bundleHeader (s.nextBundle k)) then some (.cui k.kid)
  else
    match s.dom? k.dom with
    | none => none
    | some d =>
      let exchange := k.seg.isSome && s.exchanging k.dom
      if d.preempt && d.freeze.isNone && !exchange && !k.inRewind && s.preemptionPoint k then some (.preemptionPointStop k.kid) else none

/-- FP_TRAP (04 R85). -/
def execFpTrap (k : Nat) (s : State) : Out :=
  match s.kern? k with
  | none => .next s
  | some x =>
    if s.before x != some (.fpTrap k) then .next s
    else
      let v := x.spr.fpOwed.headD 0
      let s := s.modKern k fun y => { y with spr := { y.spr with fpOwed := y.spr.fpOwed.drop 1 } }
      .next (s.trapEntry k 0x18 v 0 x.ctl.pc 0 true)

/-- STEP (14 R360): a trap, or a debug stop while management holds the debug claim. A single step sets the window flag
(06 R153). -/
def execStep (k : Nat) (s : State) : Out :=
  match s.kern? k with
  | none => .next s
  | some x =>
    if s.before x != some (.step k) then .next s
    else
      let s := (s.modKern k fun y => { y with ctl := { y.ctl with stepOwed := false } }).breakWindow x.dom
      if s.hub.debug then .next (s.modKern k fun y => { y with ctl := { y.ctl with wait := .debug, waitAt := x.ctl.pc } })
      else .next (s.trapEntry k 0x28 0 0 x.ctl.pc 0 true)

/-- The pending interrupt that is taken first: the least engine number, then the earliest completion (06 R163). -/
def firstCui : List (Nat × BitVec 32) → Option (Nat × BitVec 32)
  | [] => none
  | c :: t => match firstCui t with | some d => if d.1 < c.1 then some d else some c | none => some c

/-- A list without the first occurrence of an element. -/
def removeFirst {α : Type} [DecidableEq α] (a : α) : List α → List α
  | [] => []
  | x :: t => if x = a then t else x :: removeFirst a t

/-- CUI (06 R163): TPC names the bundle that would issue, or the bundle of the wait. -/
def execCui (k : Nat) (s : State) : Out :=
  match s.kern? k with
  | none => .next s
  | some x =>
    if s.before x != some (.cui k) then .next s
    else
      match firstCui x.ctl.cui with
      | none => .next s
      | some c =>
        let at_ := if x.waiting then x.ctl.waitAt else x.ctl.pc
        let s := s.modKern k fun y => { y with ctl := { y.ctl with cui := removeFirst c y.ctl.cui } }
        .next (s.trapEntry k 0x30 (wordOf (c.1 + 2 ^ 32 * c.2.toNat)) 0 at_ 0 false)

/-- A core stops at a pre-emption point: the domain keeps whether all its cores do so at one DCYC (06 R153, R169). -/
def Dom.noteStop (x : Dom) : Dom :=
  match x.stopAt with
  | none => { x with stopAt := some x.dcyc }
  | some c => { x with stagger := x.stagger || c != x.dcyc }

/-- PREEMPTION_POINT_STOP (06 R169). -/
def execPreemptionPointStop (k : Nat) (s : State) : Out :=
  match s.kern? k with
  | none => .next s
  | some x =>
    if s.before x != some (.preemptionPointStop k) then .next s
    else .next ((s.modKern k fun y => { y with ctl := { y.ctl with stopped := true } }).modDom x.dom Dom.noteStop)

/-! ## Holds -/

/-- A guard that fails with every value that its predicate can give: the one that stands and those still in flight. -/
def Kern.guardFails (k : Kern) (o : Op) : Bool :=
  if o.pred = 0 then o.pinv
  else
    let i := o.pred.toNat
    (Tab.get PredReg.clear k.preds i :: k.flights.filterMap fun f => f.dst.predOf i).all fun p => !p.tag && p.v == o.pinv

/-- The slot operations of a bundle that will run: slot and instruction, from slot j on, shadows left out. -/
def Kern.running (k : Kern) (b : BitVec 512) (j : Nat) : List (Nat × Instr × Op) :=
  ((List.range 7).filter fun n => decide (j ≤ n) && hdrPresent (bundleHeader b) n).filterMap fun n =>
    match decodeSlot n (bundleSlot b n) with
    | .ok i =>
      match i.op? with
      | some o => if o.sh || k.guardFails o then none else some (n, i, o)
      | none => none
    | _ => none

/-- The scalar registers that an operation reads or writes, as `Kern.regs` numbers them. -/
def scalarDeps (handler : Bool) (i : Instr) (o : Op) : List Nat :=
  match i.form with
  | none => []
  | some f =>
    let src := fun (kind : SrcKind) (x : BitVec 8) =>
      match kind with
      | .scalar => if x.toNat < 0x80 then [scalarIndex handler x.toNat] else []
      | .coord => if o.m.extractLsb' 0 2 = 0 ∧ x.toNat < 0x80 then [scalarIndex handler x.toNat] else []
      | _ => []
    let dst := if (f.dest == .sreg || f.dest == .ereg) && (!o.nw || i.destRead f o)
      then [scalarIndex handler (32 * o.dstBank + o.dstIdx)] else []
    src f.a o.a ++ src f.b o.b ++ src f.c o.m ++ dst

/-- A register that the operations read or write is pending (05 R106). -/
def Kern.meetsPending (k : Kern) (l : List (Nat × Instr × Op)) : Bool :=
  l.any fun e => (scalarDeps k.ctl.handler e.2.1 e.2.2).any fun i => (Tab.get Reg.zero k.regs i).pend

/-- A kernel's loads and AMOs whose data has not landed. -/
def Core.loads (c : Core) : Nat := (c.port.filter fun p => match p.op with | .load => true | .amo _ => true | _ => false).length

/-- Store-buffer entries: what has not yet left for its line queue (05 R137). -/
def Core.stores (c : Core) : Nat :=
  (c.port.filter fun p => p.st == .waiting && (match p.op with | .store => true | .red _ => true | .amo _ => true | _ => false)).length

/-- The store buffer is full, and something in it can leave: the operations that an open segment holds leave at its commit alone, and
what comes on top of 16 of them traps (05 R137; 14 R377 reason 4). -/
def Core.full (c : Core) : Bool :=
  decide (16 ≤ c.stores) && c.port.any fun p =>
    p.st == .waiting && !p.held && (match p.op with | .store => true | .red _ => true | .amo _ => true | _ => false)

/-- The port has no room for the S1 operation (05 R137). -/
def Core.noRoom (c : Core) (l : List (Nat × Instr × Op)) : Bool :=
  l.any fun e =>
    match e.2.1 with
    | .mld _ => decide (8 ≤ c.loads)
    | .amo _ => decide (8 ≤ c.loads) || c.full
    | .mst _ => c.full
    | .red _ => c.full
    | _ => false

/-- The address of a poison store that runs under PROPAGATE (05 R135). -/
def poisonStoreAt (i : Instr) : Slot (Option Nat) := do
  let at_ := fun (o : Op) (g : Option Origin) => do
    let va ← checkAddress o [← readScalar o.a]
    return if g.isSome && (← curKern).spr.pstore then some va else none
  match i with
  | .mst o => at_ o (storeValue o (o.m.getLsbD 6) (← readScalar o.b)).2
  | .red o => at_ o (← readWidth o.w o.b).org?
  | .amo o =>
    let d ← (if amoOp o = 10 then readDest o o.w else return SVal.zero)
    at_ o (mergePoison [(← readWidth o.w o.b).org?, d.org?])
  | _ => return none

/-- The state as slot j of a bundle would find it. -/
def State.probe (s : State) (k : Kern) (b : BitVec 512) (j : Nat) : State :=
  { s with issue := { Issue.none with active := true, kid := k.kid, bundle := b, addr := k.ctl.pc, slot := j, first := k.ctl.slot } }

/-- The poison store whose translation is not known yet. -/
def State.untranslated (s : State) (k : Kern) (b : BitVec 512) (l : List (Nat × Instr × Op)) : Option Nat :=
  l.findSome? fun e =>
    match poisonStoreAt e.2.1 (s.probe k b e.1) with
    | .ok (some va, _) => if (s.cached (k.core / 8) k.ctx va true).isSome then none else some va
    | _ => none

/-- The streams that the V slots pop. -/
def vldStreams (l : List (Nat × Instr × Op)) : List Nat :=
  l.filterMap fun e => match e.2.1 with | .vld o => some o.a.toNat | _ => none

/-- Pop j of those a generator holds is wanted and not ready in this cycle (08 R217). -/
def Kern.popMissing (k : Kern) (x : Stream) (j : Nat) : Bool :=
  decide (x.pos + j < x.npops) && (k.indexCold x (x.pos + j)).isNone && (k.popCold x (x.pos + j)).isNone
    && match (x.pops.drop j).head? with | some p => decide (k.cyc ≤ p.at_) | none => true

/-- A stream that the bundle pops is not ready. -/
def Kern.streamStalls (k : Kern) (l : List (Nat × Instr × Op)) : Bool :=
  let sts := vldStreams l
  sts.any fun st =>
    match (if st < k.res.st then Tab.get? k.streams st else none) with
    | none => false
    | some x => !x.isStore && (List.range (sts.filter (· == st)).length).any (k.popMissing x)

/-- The tiles or granules of power units (08 R226). -/
def unitNeeds (b : Nat) (mask : Nat) : List MNeed :=
  ((List.range 16).filter fun u => mask / 2 ^ u % 2 == 1).flatMap fun u =>
    if b = 2 then (List.range 16).map fun i => .wrTile (16 * u + i)
    else if b = 1 then [.wrGran (32 * u) (32 * u + 31)] else []

/-- What the scoreboard asks of an operation outside the M slot (10 R277, 08 R226). -/
def slotNeeds (i : Instr) : Slot (List MNeed) := do
  match i with
  | .accrd o => return [.wrTile ((← readScalar o.a).v.toNat / 128)]
  | .accwr o => return [.wrTile ((← readScalar o.b).v.toNat / 128)]
  | .xrecv o =>
    let a := (← readScalar o.a).v.toNat
    return if o.m.getLsbD 2 then [.wrTile (a / 128)] else [.wrAb a (a + 255)]
  | .qpost o =>
    let a := (← readScalar o.a).v.toNat
    return [.rdAb a (a + 127)]
  | .vst o =>
    let v ← readVector false o.a
    let x ← streamOf o.b.toNat true
    let m ← controlMask o.m75 false
    return ((← curKern).pushWrites x x.pos v m).map fun w => .wrAb w.addr (w.addr + min x.bytes 4 - 1)
  | .bpwrRetain o => return unitNeeds (o.m.extractLsb' 0 2).toNat (← readScalar o.a).v.toNat
  | _ => return (← get).matNeeds i

/-- The scoreboard, or an MWAIT, holds the bundle. -/
def State.matrixHolds (s : State) (k : Kern) (b : BitVec 512) (l : List (Nat × Instr × Op)) : Bool :=
  decide (k.cyc < k.mat.hold) || l.any fun e =>
    match slotNeeds e.2.1 (s.probe k b e.1) with
    | .ok (needs, _) => needs.any k.forbids
    | .error _ => false

/-- What holds a bundle: whether it breaks the domain window, and the address whose translation it waits for. -/
structure Hold where
  breaks : Bool
  xlate : Option Nat
  deriving DecidableEq, Repr, Inhabited

/-- The hold of the bundle at the program counter, if any. -/
def State.hold? (s : State) (k : Kern) (b : BitVec 512) : Option Hold :=
  let l := k.running b k.ctl.slot
  let c := s.core k.core
  let x := s.untranslated k b l
  if k.meetsPending l || c.noRoom l || x.isSome then some ⟨true, x⟩
  else if s.closing k || (s.preClosing k && (!k.landed || k.mismatch || k.inRerun)) then some ⟨k.regs.any fun r => r.2.pend, none⟩
  else if k.streamStalls l || s.matrixHolds k b l then some ⟨false, none⟩
  else none

/-! ## Segments open (14 R374, R375) -/

/-- What the checkpoint bank takes. -/
def Kern.checkpoint (k : Kern) : Ckpt where
  regs := k.regs
  preds := k.preds
  masks := k.masks
  vregs := k.vregs
  lat := k.lat
  latSaved := k.latSaved
  spr := k.spr
  ctl := { k.ctl with segDue := none }
  fmts := k.fmts
  tdt := k.tdt
  streams := k.streams
  units := k.units
  mat := k.mat
  inbox := k.inbox
  cyc := k.cyc
  flights := k.flights
  dw := k.dw

/-- A segment that opens. -/
def Kern.openSegment (k : Kern) (rdv byBundle : Bool) (pseq : Nat) : Kern :=
  let k := { k with ctl := { k.ctl with segDue := none } }
  { k with seg := some ⟨rdv, byBundle, k.checkpoint, [], [], [], [], [], [], [], 0, [], 0, 0, [], 0, false, pseq, 0, 0, 0, false⟩ }

/-! ## The issue -/

/-- A miss at an address, with the TIME at which it was first met. -/
def Ctl.miss (c : Ctl) (now va : Nat) : Nat × Nat :=
  match c.xlate with
  | some (w, t) => if w = va then (va, t) else (va, now)
  | none => (va, now)

/-- The bundle does not issue in this cycle. -/
def State.holdIssue (s : State) (k : Kern) (h : Hold) : State :=
  let s := s.modKern k.kid fun y => { y with ctl := { y.ctl with tried := true, xlate := h.xlate.map (y.ctl.miss s.hub.time) } }
  if h.breaks then s.breakWindow k.dom else s

/-- The arrived entry that is not matched: of several the one that arrived first, of equals the one sent first (log 118: DESIGN
CHOICE). -/
def Kern.unmatched (k : Kern) : Option XEntry :=
  (k.inbox.filter fun e => e.st == .arrived).foldl (fun (b : Option XEntry) e =>
    match b with
    | none => some e
    | some x => if e.arr < x.arr then some e else b) none

/-- The slots begin, the C position first: a bundle without a C slot meets the flow check here (03 R61). -/
def State.beginSlots (s : State) (k : Kern) (b : BitVec 512) : State :=
  let first := k.ctl.slot
  let t := { s with issue := { Issue.none with
    active := true, kid := k.kid, bundle := b, addr := k.ctl.pc, slot := first, first := first } }
  if first = 0 ∧ hdrPresent (bundleHeader b) 0 = true then t
  else
    match checkFlow t with
    | .ok _ => t
    | .error e => t.stopSlot e

/-- The bundle issues: CKPT's exchange role and segment, the count of bundles (06 R157, R158; 14 R374, R377). -/
def State.issueNow (s : State) (k : Kern) (b : BitVec 512) : State :=
  let ckpt := hdrCkpt (bundleHeader b) && k.ctl.slot == 0
  match (if ckpt then k.unmatched else none) with
  | some e => s.trapEntry k.kid 0x20 (wordOf (2 * 2 ^ 16 + e.src)) 0 k.ctl.pc 0 true
  | none =>
    let s := s.modKern k.kid fun y =>
      let y := if ckpt then { y with inbox := y.inbox.filter fun e => e.st != .matched } else y
      let y := if ckpt && y.resil && y.seg.isNone && !isRendezvous b then y.openSegment false true (s.core y.core).pseq else y
      { y with
        ctl := { y.ctl with xlate := none, tried := true }
        seg := y.seg.map fun g => { g with count := g.count + 1 } }
    match (s.kern k.kid).seg with
    | some g =>
      if 4096 < g.count then s.uncontained k.kid 0x03 0x22 1 0 (pcValue k.ctl.pc k.ctl.slot) 0 0
      else s.beginSlots k b
    | none => s.beginSlots k b

/-- A fetch corrects a bundle with one wrong bit, and management counts it (08 R200). -/
def State.correctFetch (s : State) (core addr : Nat) : State :=
  if (s.core core).isCe.contains addr then
    { s.modCore core fun c => { c with isCe := c.isCe.filter (· != addr) } with hub := s.hub.countUp 0 1 }
  else s

/-- The checks before a bundle's slots, in order: the words fetched (14 R372; 08 R200), the header (03 R48), an exchange entry that
met a full inbox, in slot 0 (06 R158), the slots closed to a handler (14 R356), the end of a segment that holds an exchange (14
R377), and the holds. -/
def State.tryIssue (s : State) (k : Kern) : State :=
  let b := s.nextBundle k
  let h := bundleHeader b
  let pc := k.ctl.pc
  let s := s.correctFetch k.core pc.toNat
  if (s.core k.core).isUe.contains pc.toNat then s.uncontained k.kid 0x07 0 0 0 (pcValue pc k.ctl.slot) 0 0
  else if !headerOk b then s.trapEntry k.kid 0x02 (h.setWidth 64) 0 pc 0 true
  else
    match (if k.ctl.handler || k.ctl.slot != 0 then none else k.ctl.xOwed.head?) with
    | some src =>
      (s.modKern k.kid fun y => { y with ctl := { y.ctl with xOwed := y.ctl.xOwed.drop 1 } }).trapEntry k.kid 0x20
        (wordOf (3 * 2 ^ 16 + src)) 0 pc 0 true
    | none =>
      if k.ctl.handler && (hdrPresent h 5 || hdrPresent h 6) then s.uncontained k.kid 0x02 0 0 0 (pcValue pc k.ctl.slot) 0 0
      else if s.cutsExchange k then
        s.uncontained k.kid 0x03 0x22 6 0 (pcValue pc 0) 0 0
      else
        match s.hold? k b with
        | some x => s.holdIssue k x
        | none => s.issueNow k b

/-- The wait of a core that is over ends; a POISON status that it covers is reported (06 R162). -/
def State.endWait (s : State) (k : Kern) : State :=
  let t := s.modKern k.kid fun y => { y with ctl := { y.ctl with wait := .none } }
  match k.ctl.wait with
  | .waitx e id =>
    match (k.port e).report id with
    | some (i, g) =>
      (s.modKern k.kid fun y => y.modPort e fun p => p.clearReport i).trapEntry k.kid 0x12 (i.setWidth 64) g k.ctl.waitAt 0 true
    | none => t
  | _ => t

/-- BUNDLE_ISSUE (06 R140). -/
def execBundleIssue (k : Nat) (s : State) : Out :=
  match s.kern? k with
  | none => .next s
  | some x =>
    if !s.atBundle x || (s.before x).isSome then .next s
    else if x.waiting then .next (s.holdIssue x ⟨true, none⟩)
    else if x.ctl.wait != .none then .next (s.endWait x)
    else
      match x.ctl.segDue, x.seg with
      | some rdv, none => .next (s.modKern k fun y => if y.resil then y.openSegment rdv false (s.core y.core).pseq else { y with ctl := { y.ctl with segDue := none } })
      | _, _ => .next (s.tryIssue x)

/-! ## Restarts and throttling (06 R154, R167) -/

/-- The domain's restart is due. -/
def Dom.restartDue (x : Dom) : Bool := x.restart == some 0

/-- A core of the domain waits at a YIELD. -/
def State.anyYield (s : State) (d : Nat) : Bool :=
  s.kerns.any fun k => k.dom == d && (match k.ctl.wait with | .yield _ => true | _ => false)

/-- A core leaves its vote: it issues in this cycle; a rendezvous begins a segment (06 R154). -/
def Kern.restart (k : Kern) : Kern :=
  match k.ctl.wait with
  | .sync rdv => { k with ctl := { k.ctl with wait := .none, gap := 0, segDue := if rdv && k.resil then some true else k.ctl.segDue } }
  | .yield _ => { k.groupSwitch with ctl := { k.ctl with wait := .none, gap := 0 } }
  | _ => k

/-- Every core of the domain leaves its vote, and the window flag is cleared (06 R153, R154). -/
def State.restartDomain (s : State) (d : Nat) : State :=
  let s := { s with kerns := s.kerns.map fun (k : Kern) => if k.dom = d then k.restart else k }
  s.modDom d fun x => { x with restart := none, broken := false }

/-- SYNC_RESTART (06 R154). -/
def execSyncRestart (d : Nat) (s : State) : Out :=
  match s.dom? d with
  | none => .next s
  | some x =>
    if x.restartDue && s.domRuns d && !x.frozen && !s.anyYield d then .next (s.restartDomain d) else .next s

/-- THROTTLE_BLOCK (06 R167): 16 whole cycles on every core of the domain. -/
def execThrottleBlock (d : Nat) (s : State) : Out :=
  match s.dom? d with
  | none => .next s
  | some x => if x.started && x.throttle == 0 then .next (s.modDom d fun y => { y with throttle := 16 }) else .next s

end Sys2Proof.Machine
end

