-- ==== Sys2Proof/Machine/Order.lean ====
section
/-! DEFINITION. The ordering machine (13 R332-R352): accesses leave a core's port for the line queues in the order that page
kinds, acquires, releases, fences and the issue cycles of a domain allow, are performed at the head of their line queue
(05 R134-R136), and loads land (05 R106). Translation walks (09 R230-R232; 05 R138). -/

namespace Sys2Proof.Machine

/-! ## Accesses of a port -/

/-- A store-buffer entry: MST, RED, AMO. -/
def POp.isEntry (o : POp) : Bool := match o with | .store => true | .red _ => true | .amo _ => true | _ => false
/-- A load: MLD, and the read half of AMO. -/
def POp.isLoad (o : POp) : Bool := match o with | .load => true | .amo _ => true | _ => false
/-- MLD alone. -/
def POp.isMld (o : POp) : Bool := match o with | .load => true | _ => false

/-- The width in bytes. -/
def PItem.len (x : PItem) : Nat := if x.w8 then 8 else 4

/-- The access needs the right to write. -/
def PItem.writes (x : PItem) : Bool := !x.op.isMld

/-- The store that an entry is, besides those merged into it. -/
def PItem.own (x : PItem) : Part := ⟨x.seq, x.va, x.w8, x.data, x.poison, x.f⟩
/-- The stores of an entry, oldest first. -/
def PItem.parts (x : PItem) : List Part := x.under ++ [x.own]
/-- The width of a store in bytes. -/
def Part.len (p : Part) : Nat := if p.w8 then 8 else 4
/-- The sequence number of the oldest store of an entry. -/
def PItem.oldest (x : PItem) : Nat := match x.under with | p :: _ => p.seq | [] => x.seq

/-- An access's translation: the one its walk gave, while its group is allocated (09 R235), or the cluster cache's. -/
def State.itemTrans (s : State) (c : Nat) (x : PItem) : Option Trans :=
  match x.tr.filter fun t => (s.pan (groupOf t.pa)).alloc with
  | some t => some t
  | none => s.cached (c / 8) (s.kern x.kid).ctx x.va x.writes

/-- The page kind of an access is UO. -/
def State.isUo (s : State) (c : Nat) (x : PItem) : Bool :=
  match s.itemTrans c x with | some t => t.kind == .uo | none => false

/-- The page kind of an access is SO. -/
def State.isSo (s : State) (c : Nat) (x : PItem) : Bool :=
  match s.itemTrans c x with | some t => t.kind == .so | none => false

/-- A pending fault of the core's port holds the access: it or an earlier one met the fault (05 R138; 09 R232). -/
def State.portHolds (s : State) (c seq : Nat) : Bool := s.rfaults.any fun f => f.req == .port c && decide (f.from_ ≤ seq)

/-! ## What must be past before an access goes (R334, R335, R337, R338) -/

/-- A store of an entry, by its physical address, meets the bytes of a load. -/
def Part.meets (p : Part) (at_ : Nat) (x : PItem) (t : Trans) : Bool := decide (at_ < t.pa + x.len) && decide (t.pa < at_ + p.len)

/-- The stores, REDs and AMOs in a core's store buffer before access x that meet its bytes, oldest first: the entry, the store and
its physical address. Entries on UO pages forward nothing (R335). -/
def State.older (s : State) (c : Nat) (x : PItem) (t : Trans) : List (PItem × Part × Nat) :=
  ((s.core c).port.filter fun e => e.op.isEntry && e.st == .waiting).flatMap fun e =>
    match s.itemTrans c e with
    | none => []
    | some u =>
      if u.kind == .uo then []
      else (e.parts.map fun p => (e, p, u.pa + p.va - e.va)).filter fun q => decide (q.2.1.seq < x.seq) && q.2.1.meets q.2.2 x t

/-- A held entry whose bytes a load returns (05 R134): the load does not wait for it. -/
def State.answersHeld (s : State) (c : Nat) (e x : PItem) : Bool :=
  e.held && x.op.isMld && (match s.itemTrans c x with | some t => (s.older c x t).any fun q => q.1.seq == e.seq | none => false)

/-- An earlier access e keeps x, of the same core, from going: the rules but for fences. -/
def State.blocks (s : State) (c : Nat) (e x : PItem) : Bool :=
  let eo := !s.isUo c e
  let xo := !s.isUo c x
  !e.op.isFence && e.open_
    && ((s.itemTrans c e).isNone
      || (s.isSo c e && s.isSo c x && !s.answersHeld c e x)
      || (xo && eo && x.op.isEntry && e.op.isEntry && e.st == .waiting)
      || (xo && e.acq)
      || (x.rel && eo))

/-- An access before a fence that the fence puts before accesses of x's sort. -/
def State.fenceOrders (s : State) (c kind : Nat) (e x : PItem) : Bool :=
  !e.op.isFence && e.open_
    && (match kind with
      | 0 => true
      | 1 => x.op.isEntry && !s.isUo c x && e.op.isEntry && !s.isUo c e
      | _ => !s.isUo c x && e.op.isLoad && !s.isUo c e)

/-- A fence before x holds x, of the accesses before the fence. -/
def State.fenced (s : State) (c : Nat) (x : PItem) : List PItem → List PItem → Bool
  | _, [] => false
  | before, f :: t =>
    if f.seq = x.seq then false
    else (match f.op with | .fence kind => before.any (fun e => s.fenceOrders c kind e x) | _ => false)
      || s.fenced c x (before ++ [f]) t

/-- A sooner place in the issue-cycle order: stamp, then linear index (R340). -/
def soonerStamp (a b : Nat × Nat) : Bool := decide (a.1 < b.1) || (a.1 == b.1 && decide (a.2 < b.2))

/-- A core of the domain may still issue a request with a stamp that comes before t, n (R340). -/
def State.mayStillIssue (s : State) (d t n : Nat) : Bool :=
  s.kerns.any fun k => k.dom == d && k.n != n && !k.ctl.halted && !k.ctl.dead
    && soonerStamp (s.ownDcyc k, k.n) (t, n)

/-- Requests of other cores of x's domain to its line, or to a place not known yet, that have not reached their line queue. -/
def State.rivals (s : State) (c : Nat) (x : PItem) (line : Nat) : List (PItem × Nat) :=
  let d := (s.kern x.kid).dom
  (s.kerns.filter fun k => k.dom == d && k.core != c).flatMap fun k =>
    ((s.core k.core).port.filter fun y => y.kid == k.kid && !y.op.isFence && y.st == .waiting
      && (match s.itemTrans k.core y with | some t => t.pa / 64 == line && t.kind != .uo | none => true)).map fun y => (y, k.n)

/-- Requests of x's own kernel to its line that have not reached the line queue, those that wait for the segment's commit too, but the
held ones whose bytes x's answer takes (05 R134). -/
def State.ownRivals (s : State) (c : Nat) (x : PItem) (line : Nat) : List PItem :=
  (s.core c).port.filter fun y => y.kid == x.kid && y.seq != x.seq && !y.op.isFence && y.st == .waiting && !s.answersHeld c y x
    && (match s.itemTrans c y with | some t => t.pa / 64 == line && t.kind != .uo | none => false)

/-- The issue-cycle order lets x go: no request of its domain that comes before it is still to reach the line (R340). -/
def State.stampAllows (s : State) (c : Nat) (x : PItem) (t : Trans) : Bool :=
  match (if t.kind == .uo then none else x.stamp) with
  | none => true
  | some st =>
    let k := s.kern x.kid
    !s.mayStillIssue k.dom st k.n
      && ((s.ownRivals c x (t.pa / 64)).all fun y => match y.stamp with | some z => decide (st ≤ z) | none => true)
      && (s.rivals c x (t.pa / 64)).all fun y =>
        match y.1.stamp with | some z => !soonerStamp (z, y.2) (st, k.n) | none => true

/-- Everything but forwarding lets the access go. -/
def State.mayGo (s : State) (c : Nat) (x : PItem) (t : Trans) : Bool :=
  let port := (s.core c).port
  x.st == .waiting && !x.held && !s.portHolds c x.seq
    && (port.all fun e => !(decide (e.seq < x.seq) && s.blocks c e x))
    && !s.fenced c x [] port && s.stampAllows c x t

/-! ## Forwarding (R335) -/

/-- How a load is answered. -/
inductive Answer where
  /-- By its line queue. -/
  | send
  /-- By an entry of its own store buffer: value and poison. -/
  | forward (v : Word) (o : Option Origin)
  /-- Not yet. -/
  | wait
  deriving DecidableEq, Repr, Inhabited

/-- A write of another core of the domain comes between the entry and the load in the issue-cycle order (R340). -/
def State.between (s : State) (c : Nat) (e x : PItem) (line : Nat) : Bool :=
  match e.stamp, x.stamp with
  | some a, some b =>
    let n := (s.kern x.kid).n
    (s.rivals c x line).any fun y =>
      match y.1.stamp with | some z => soonerStamp (a, n) (z, y.2) && soonerStamp (z, y.2) (b, n) | none => false
  | _, _ => false

/-- The store of an entry, oldest first with its physical address, that gives byte b of memory: the newest that covers it. -/
def coverOf (l : List (Part × Nat)) (b : Nat) : Option (Part × Nat) :=
  (l.filter fun q => decide (q.2 ≤ b) && decide (b < q.2 + q.1.len)).getLast?

/-- The bytes of a load as the stores of one entry together cover them, a later over an earlier; none where one is not covered. -/
def composeParts (l : List (Part × Nat)) (pa n : Nat) : Option (Word × Option Origin) := do
  let bs ← (List.range n).mapM fun i => (coverOf l (pa + i)).map fun q => (q.1.data.toNat / 2 ^ (8 * (pa + i - q.2)) % 256, q.1)
  match mergePoison (bs.map fun b => if b.2.f then none else b.2.poison) with
  | some o => return (o.setWidth 64, some o)
  | none => return (wordOf (packNat 8 (bs.map (·.1))), none)

/-- The bytes of a load lie within those of a store. -/
def Part.covers (p : Part) (a : Nat) (x : PItem) (t : Trans) : Bool := decide (a ≤ t.pa) && decide (t.pa + x.len ≤ a + p.len)

/-- A load's answer: on a UO page by its line queue; else the newest entry that meets its bytes answers it when its stores cover
them (R335). Where a RED covers them that a segment holds, and all that meet them are held, the line queue answers and they are
put over what it reads (05 R134); else the load waits until they have left. -/
def State.answer (s : State) (c : Nat) (x : PItem) (t : Trans) : Answer :=
  if t.kind == .uo then .send
  else
    let l := s.older c x t
    match l.getLast? with
    | none => .send
    | some (e, p, a) =>
      let own := (l.filter fun q => q.1.seq == e.seq).map fun q => (q.2.1, q.2.2)
      match (if e.op == .store && !s.between c e x (t.pa / 64) then composeParts own t.pa x.len else none) with
      | some f => .forward f.1 f.2
      | none => if e.op != .store && p.covers a x t && (l.all fun q => q.1.held) then .send else .wait

/-- A forwarded load waits for the translation of what is before it, for what its acquires and its fences put before it, and for
the requests that could come between (R334, R337, R338, R340); a held segment store forwards too (05 R134). -/
def State.mayForward (s : State) (c : Nat) (x : PItem) (t : Trans) : Bool :=
  let port := (s.core c).port
  x.st == .waiting && !s.portHolds c x.seq
    && (port.all fun e => !(decide (e.seq < x.seq) && e.open_ && !e.op.isFence && (e.acq || (s.itemTrans c e).isNone)))
    && !s.fenced c x [] port
    && (match x.stamp with | some st => !s.mayStillIssue (s.kern x.kid).dom st (s.kern x.kid).n | none => true) && t.kind != .uo

/-! ## Leave and Send (R333) -/

/-- The state with one access of a core changed. -/
def State.modItem (s : State) (c seq : Nat) (f : PItem → PItem) : State :=
  s.modCore c fun x => { x with port := x.port.map fun i => if i.seq = seq then f i else i }

/-- An entry goes to the tail of its line queue, and its pan is touched (09 R236). -/
def State.enqueue (s : State) (e : LEntry) : State :=
  let ln := e.pa / 64
  ({ s with lines := Tab.put [] s.lines ln (s.line ln ++ [e]) }).touchPan (groupOf e.pa)

/-- An access of a core goes to its line queue. -/
def State.go (s : State) (c : Nat) (x : PItem) (t : Trans) : State :=
  (s.modItem c x.seq fun i => { i with st := .queued, tr := some t }).enqueue
    ⟨.port c x.seq, x.writes, x.va, t.pa, x.len, [], none, t, (s.kern x.kid).ctx⟩

/-- Access j of a core with its translation. -/
def State.access? (s : State) (c j : Nat) : Option (PItem × Trans) :=
  match ((s.core c).port.drop j).head? with
  | none => none
  | some x => (s.itemTrans c x).map fun t => (x, t)

/-- The next entry of the store buffer, the ordering point of any FENCE included (R346; 06 R164). -/
def nextEntry (l : List PItem) : Option PItem := l.find? fun e => e.op.isEntry || e.op.isFence

/-- Consecutive entries x and y may be merged (R346): stores of one kernel to one line of RC pages, both still in the store buffer,
both held or neither. -/
def State.mayMerge (s : State) (c : Nat) (x y : PItem) : Bool :=
  x.op == .store && y.op == .store && x.kid == y.kid && x.st == .waiting && y.st == .waiting && x.held == y.held
    && x.va / 64 == y.va / 64
    && (match s.itemTrans c x, s.itemTrans c y with
      | some t, some u => t.kind == .rc && u.kind == .rc && t.pa / 64 == u.pa / 64
      | _, _ => false)

/-- Entry x merged into entry y: y's position, stamp and scope; a release when either is one (R346). -/
def State.merge (s : State) (c : Nat) (x y : PItem) : State :=
  (s.modCore c fun q => { q with port := q.port.filter fun i => i.seq != x.seq }).modItem c y.seq fun i =>
    { i with under := x.parts ++ i.under, rel := i.rel || x.rel }

/-- STORE_LEAVE (R333): access j of core c's port, an entry, leaves; from the port's length on, entry j of the count over
merges into the next (R346). -/
def execStoreLeave (c j : Nat) (s : State) : Out :=
  let port := (s.core c).port
  if port.length ≤ j then
    let l := port.drop (j - port.length)
    match l.head?, nextEntry l.tail with
    | some x, some y => if s.mayMerge c x y then .next (s.merge c x y) else .next s
    | _, _ => .next s
  else
    match s.access? c j with
    | some (x, t) => if x.op.isEntry && s.mayGo c x t then .next (s.go c x t) else .next s
    | none => .next s

/-- LOAD_SEND (R333): access j of core c's port, an MLD; it is sent, or answered from the store buffer. -/
def execLoadSend (c j : Nat) (s : State) : Out :=
  match s.access? c j with
  | some (x, t) =>
    if !x.op.isMld then .next s
    else
      match s.answer c x t with
      | .send => if s.mayGo c x t then .next (s.go c x t) else .next s
      | .forward v o =>
        if s.mayForward c x t then
          .next (s.modItem c x.seq fun i => { i with st := .performed, tr := some t, result := some (v, o) })
        else .next s
      | .wait => .next s
  | none => .next s

/-! ## Perform (R332, R344; 05 R134-R136) -/

/-- The taker of an origin for a port access. -/
def PItem.taker (x : PItem) : Taker := .late x.kid x.loc x.insn x.opnd x.made

/-- The new memory value of an integer AMO or RED (05 R136). -/
def amoValue (op w m v cmp : Nat) : Nat :=
  let sm := signExt w m
  let sv := signExt w v
  match op with
  | 0 => (m + v) % 2 ^ w
  | 2 => if sv < sm then v else m
  | 3 => if sm < sv then v else m
  | 4 => min m v
  | 5 => max m v
  | 6 => m &&& v
  | 7 => m ||| v
  | 8 => m ^^^ v
  | 9 => v
  | _ => if m = cmp then v else m

/-- FADD of AMO and RED: the rounded sum, its origins as the port makes them, one of a kind however often the access is combined (05
R136; 04 R94). -/
def State.amoSum (s : State) (x : PItem) (m : FVal) : RVal × State :=
  let v : FVal := match x.poison with | some o => .poison o | none => decodeF .f32 (x.data.toNat % 2 ^ 32)
  let k := s.kern x.kid
  let (r, a) := ((do roundTo .f32 (← fpAdd 0 m v) 0 false) : Arith RVal).run
    { s.arith k with made := x.made.map fun e => ⟨e.1, e.2, 0, false⟩ }
  let info : OInfo := ⟨k.coordNat, k.core, 7, x.loc, false, x.insn, x.opnd, x.va + 2 ^ 51⟩
  let s := (a.made.drop x.made.length).foldl (fun t y => t.commitMade x.kid info y) s
  (r, s.modItem k.core x.seq fun i => { i with made := a.made.foldl (fun t y => Tab.set t y.kind y.idx) i.made })

/-- The bits of FADD's sum over those that memory holds. -/
def State.amoAdd (s : State) (x : PItem) (m : Nat) : Nat × State :=
  let r := s.amoSum x (decodeF .f32 m)
  (r.1.toBits .f32, r.2)

/-- An AMO or a RED as one entry (05 R136): the state, and what AMO returns. -/
def State.performAmo (s : State) (x : PItem) (t : Trans) (op : Nat) : State × Word × Option Origin :=
  let ctx := (s.kern x.kid).ctx
  let s := s.consume x.taker t ctx t.pa x.len
  let w := 8 * x.len
  let m := leNat (s.readPhys t.enc t.pa x.len)
  let mark := s.physMark (t.pa / 32)
  let mf := if op = 1 then poisonOrigin 2 m false else none
  let old := mergePoison [mark, mf]
  let (sum, s) := if op = 1 then s.amoSum x (match old with | some o => .poison o | none => decodeF .f32 m) else (.bits 0, s)
  let all := if op = 1 then sum.origin? else mergePoison [old, x.poison]
  let ret : Word × Option Origin := match old with
    | some _ => ((all.getD 0).setWidth 64, all)
    | none => (wordOf m, none)
  let v := x.data.toNat % 2 ^ w
  if op = 10 ∧ x.cmpPoison.isSome then
    let o := mergePoison [x.cmpPoison, old]
    (s, (o.getD 0).setWidth 64, o)
  else if mark.isSome then (if x.poison.isSome then s.performMark t.pa (all.getD 0) else s, ret.1, ret.2)
  else if op = 1 then
    (s.performWrite x.taker t ctx t.pa (leBytes 4 (sum.toBits .f32)), ret.1, ret.2)
  else
    match x.poison with
    | some o => (s.performMark t.pa o, ret.1, ret.2)
    | none =>
      if op = 10 ∧ m ≠ x.cmp.toNat % 2 ^ w then (s, ret.1, ret.2)
      else (s.performWrite x.taker t ctx t.pa (leBytes x.len (amoValue op w m v (x.cmp.toNat % 2 ^ w))), ret.1, ret.2)

/-- An access leaves the port. -/
def State.dropItem (s : State) (c seq : Nat) : State :=
  s.modCore c fun x => { x with port := x.port.filter fun i => i.seq != seq }

/-- The aligned 8 bytes at a line, and the origin of their poison, as one held store or RED will leave them. -/
def State.overHeld (s : State) (base : Nat) (m : Nat × Option Origin) (q : PItem × Part × Nat) : State × Nat × Option Origin :=
  let (e, p, a) := q
  let sh := 8 * (a - base)
  let w := 8 * p.len
  let old := m.1 / 2 ^ sh % 2 ^ w
  let put := fun v => m.1 - old * 2 ^ sh + v % 2 ^ w * 2 ^ sh
  match e.op with
  | .red op =>
    if op = 1 then
      let (r, s) := s.amoAdd e old
      (s, put r, m.2)
    else (s, put (amoValue op w old (p.data.toNat % 2 ^ w) 0), mergePoison [m.2, p.poison])
  | _ => (s, put p.data.toNat, mergePoison [m.2, if p.f then none else p.poison])

/-- A load at its line queue: the word, or the origin of its sector, with the core's held stores and REDs put over what memory
holds (05 R134). -/
def State.performLoad (s : State) (c : Nat) (x : PItem) (t : Trans) : State × Word × Option Origin :=
  let s := s.consume x.taker t (s.kern x.kid).ctx t.pa x.len
  let base := t.pa / 8 * 8
  let held := if t.kind == .uo then [] else (s.older c x t).filter fun q => q.1.held
  let (s, m, o) := held.foldl (fun (acc : State × Nat × Option Origin) q => acc.1.overHeld base acc.2 q)
    (s, leNat (s.readPhys t.enc base 8), s.physMark (t.pa / 32))
  match o with
  | some o => (s, o.setWidth 64, some o)
  | none => (s, wordOf (m / 2 ^ (8 * (t.pa - base)) % 2 ^ (8 * x.len)), none)

/-- The stores of an entry are performed, oldest first. -/
def State.performStores (s : State) (x : PItem) (t : Trans) : State :=
  x.parts.foldl (fun s p =>
    let a := t.pa + p.va - x.va
    match (if p.f then none else p.poison) with
    | some o => s.performMark a o
    | none => s.performWrite x.taker t (s.kern x.kid).ctx a (leBytes p.len p.data.toNat)) s

/-- A port access is performed. -/
def State.performItem (s : State) (c : Nat) (x : PItem) (t : Trans) : State :=
  let s := match x.op with
    | .load =>
      let (s, v, o) := s.performLoad c x t
      s.modItem c x.seq fun i => { i with st := .performed, result := some (v, o) }
    | .amo op =>
      let (s, v, o) := s.performAmo x t op
      s.modItem c x.seq fun i => { i with st := .performed, result := some (v, o) }
    | .red op => (s.performAmo x t op).1.dropItem c x.seq
    | .store => (s.performStores x t).dropItem c x.seq
    | .fence _ => s
  s.settlePort c

/-- Bytes that an engine has read, entered by virtual address. -/
def EMem.store (m : EMem) (va : Nat) (l : List CByte) : EMem :=
  { m with cache := ((List.range l.length).zip l).foldl (fun t e => Tab.set t (va + e.1) e.2) m.cache }

/-- An engine's entry is performed. -/
def State.performEngine (s : State) (k e id : Nat) (x : LEntry) : State :=
  let code := match ((s.kern k).port e).runs.find? fun r => r.op.id.toNat == id with | some r => r.op.code | none => 0
  let t := Taker.kern k e id code
  if x.write then
    match x.mark with
    | some o => s.performMark x.pa o
    | none => s.performWrite t x.tr x.ctx x.pa x.bytes
  else
    let s := s.consume t x.tr x.ctx x.pa x.len
    let l := s.readBytes x.tr.enc x.pa x.len
    s.modKern k fun y => y.modPort e fun p => p.modRun id fun r => { r with mem := r.mem.store x.va l }

/-- FADD of a fabric atomic: the hub takes its origins from the context's log (14 R369). -/
def State.hubAdd (s : State) (ctx addr m v : Nat) : Nat × State :=
  let next := (s.context ctx).next
  let (r, a) := ((do roundTo .f32 (← fpAdd 0 (decodeF .f32 m) (decodeF .f32 v)) 0 false) : Arith RVal).run
    ⟨0, 0, (List.range (min 8 (0x7FFF - next))).map fun i => BitVec.ofNat 15 (next + i), next == 0x7FFF, [], 0⟩
  (r.toBits .f32, a.made.foldl (fun s y => (s.hubOrigin ctx y.kind ⟨0, 0, 9, 0, false, 0, 0, addr⟩).2) s)

/-- The bytes that a fabric atomic leaves of those it finds (R345; 05 R136): its operands are the value, and CAS's compare value
behind it. -/
def State.fabricResult (s : State) (ctx addr op : Nat) (args old : List Byte) : List Byte × State :=
  let n := old.length
  let v := leNat (args.take n)
  if op = 1 then
    let (r, s) := s.hubAdd ctx addr (leNat old) v
    (leBytes n r, s)
  else (leBytes n (amoValue op (8 * n) (leNat old) v (leNat ((args.drop n).take n))), s)

/-- The bytes that a fabric atomic has read. -/
def HReq.oldBytes (r : HReq) : List Byte := (List.range r.len).map fun i => Tab.get 0 r.data i

/-- A source's read: an uncorrectable sector stays unmarked; an encrypted line whose tag fails becomes poison (14 R369, R370). -/
def State.readSource (s : State) (r : HReq) (x : LEntry) : State × HReq :=
  let tagged := x.tr.enc && s.lineTag (x.pa / 64) != s.ctxTag x.ctx
  let s := (s.consume (.hub x.ctx 9) x.tr x.ctx x.pa 0).correct (sectorsOf x.pa x.len)
  let gone := fun sec => tagged || (s.ue.contains sec && (s.physMark sec).isNone)
  (s, { r with
    poisoned := r.poisoned || (sectorsOf x.pa x.len).any gone
    data := ((List.range x.len).zip (s.readPhys x.tr.enc x.pa x.len)).foldl (fun t e =>
      Tab.set t (x.va + e.1) (if gone ((x.pa + e.1) / 32) then 0 else e.2)) r.data })

/-- The entry of a fabric atomic on a SYSATOM page: it reads and writes in one (R345). -/
def State.performFabric (s : State) (r : HReq) (x : LEntry) (op : Nat) (args : List Byte) : State × HReq :=
  let t := Taker.hub x.ctx 9
  let s := s.consume t x.tr x.ctx x.pa x.len
  let old := s.readPhys x.tr.enc x.pa x.len
  let (new, s) := if (s.physMark (x.pa / 32)).isSome then (old, s) else s.fabricResult x.ctx (x.tr.logAddr x.pa) op args old
  (if (s.physMark (x.pa / 32)).isSome then s else s.performWrite t x.tr x.ctx x.pa new,
   { r with data := ((List.range x.len).zip old).foldl (fun t e => Tab.set t e.1 e.2) r.data })

/-- A fabric atomic that has read its words writes them: one entry for each 4 bytes, the low word first, ahead of what its source has
sent since (R345). -/
def State.fabricBack (s : State) (node req : Nat) (x : LEntry) (r : HReq) (op : Nat) (args : List Byte) : State × HReq :=
  let base := x.pa - x.va
  let (new, s) := s.fabricResult x.ctx (x.tr.logAddr base) op args r.oldBytes
  let es := (List.range (r.len / 4)).map fun i =>
    ({ x with agent := .source node req, write := true, va := 4 * i, pa := base + 4 * i, len := 4, bytes := (new.drop (4 * i)).take 4 } : LEntry)
  ({ s with ingress := Tab.put [] s.ingress node (es ++ Tab.get [] s.ingress node) }, { r with left := es.length + 1, back := true })

/-- A source's request is performed (16 R411; 14 R369), or one entry of its fabric atomic (R345). -/
def State.performSource (s : State) (node req : Nat) (x : LEntry) : State :=
  match Tab.get? s.reqs req with
  | none => s
  | some r =>
    let t := Taker.hub x.ctx 9
    let (s, r) :=
      if x.write then
        match (if r.back then none else r.amo) with
        | some (op, args) => s.performFabric r x op args
        | none =>
        match (if r.poisoned then r.org else none) with
        | some o => ((sectorsOf x.pa x.len).foldl (fun s sec => s.performMark (32 * sec) o) s, r)
        | none => (s.performWrite t x.tr x.ctx x.pa x.bytes, r)
      else
        let (s, r) := s.readSource r x
        match r.amo with
        | some (op, args) => if r.left = 1 && !r.fault then s.fabricBack node req x { r with poisoned := false } op args else (s, r)
        | none => (s, r)
    { s with reqs := Tab.set s.reqs req { r with left := r.left - 1 } }

/-- LINE_PERFORM (R332, R333): the head of a line queue, once its pan is ACTIVE and initialised (09 R234, R235); while it stood there
the pan had a request. -/
def execLinePerform (ln : Nat) (s : State) : Out :=
  match s.line ln with
  | [] => .next s
  | x :: rest =>
    if Config.groups ≤ groupOf x.pa then .fault (.noSuchAddress x.pa)
    else if (s.pan (groupOf x.pa)).st != .active || (s.pan (groupOf x.pa)).init then .next s
    else
      let s := { s with lines := Tab.put [] s.lines ln rest }.modPan (groupOf x.pa) fun p => { p with touched := s.hub.time }
      match x.agent with
      | .port c seq =>
        match (s.core c).port.find? fun i => i.seq == seq with
        | some i => .next (s.performItem c i x.tr)
        | none => .next s
      | .engine k e id => .next (s.performEngine k e id x)
      | .source node req => .next (s.performSource node req x)
      | .hub => .next s

/-! ## Loads land (05 R106, R134) -/

/-- Position of the j-th performed access of a kernel whose data is to land. -/
def Core.toLand (c : Core) (k : Nat) : List PItem := c.port.filter fun x => x.kid == k && x.st == .performed

/-- A load's data lands in a register. What was issued before the open segment lands in the checkpoint as well, where its register
is pending, and is no write-back of the segment (14 R379). -/
def Kern.landLoad (y : Kern) (i : Nat) (r : Reg) (seq key : Nat) : Kern :=
  let z := { y with regs := Tab.put Reg.zero y.regs i r }
  match y.seg with
  | some g =>
    if seq < g.pseq then { z with seg := some { g with ck := { g.ck with regs := Tab.put Reg.zero g.ck.regs i r } } }
    else z.signature key [(FDest.sreg (some i) r).code]
  | none => z

/-- MLD_DATA_LAND (05 R134): the j-th of a kernel's performed loads and AMOs. -/
def execMldDataLand (k j : Nat) (s : State) : Out :=
  match s.kern? k with
  | none => .next s
  | some y =>
    match (((s.core y.core).toLand k).drop j).head? with
    | none => .next s
    | some x =>
      let s := (s.dropItem y.core x.seq).settlePort y.core
      match x.dst, x.result with
      | some i, some (v, o) =>
        let r : Reg := ⟨v, o.isSome, o.isSome && x.w8, v, false⟩
        .next (s.modKern k fun y => y.landLoad i r x.seq x.key)
      | _, _ => .next s

/-! ## Page walks (09 R230-R232) -/

/-- A request that waits for a translation: its requester, its core, kernel, address, whether it writes. -/
structure WalkReq where
  core : Nat
  kid : Nat
  ctx : Nat
  va : Nat
  write : Bool
  /-- The number of the port's access; none for a poison store or an engine. -/
  seq : Option Nat
  /-- The engine whose miss it is. -/
  engine : Option Nat
  deriving DecidableEq, Repr, Inhabited

/-- The misses of engines on a die that no pending fault holds and no walk has answered since (09 R231). -/
def State.engineMisses (s : State) (die : Nat) : List (Nat × WalkReq) :=
  s.emiss.filterMap fun m =>
    match s.kern? m.kid with
    | some k =>
      if k.core / 64 = die ∧ s.heldBy (.engine m.kid m.engine) = false ∧ (s.cached (k.core / 8) m.ctx m.va m.write).isNone then
        some (m.came, ⟨k.core, m.kid, m.ctx, m.va, m.write, none, some m.engine⟩)
      else none
    | none => none

/-- The misses of a die with the TIME of each, in order of arrival: port requests that no pending fault holds, the poison stores
that wait for a translation, and those of engines. -/
def State.misses (s : State) (die : Nat) : List (Nat × WalkReq) :=
  let port := s.cores.flatMap fun c =>
    if c.1 / 64 ≠ die then []
    else (c.2.port.filter fun x => !x.op.isFence && x.st == .waiting && (s.itemTrans c.1 x).isNone && !s.portHolds c.1 x.seq).map fun x =>
      (x.came, (⟨c.1, x.kid, (s.kern x.kid).ctx, x.va, x.writes, some x.seq, none⟩ : WalkReq))
  let poison := s.kerns.filterMap fun k =>
    match k.ctl.xlate with
    | some (va, t) =>
      if k.core / 64 = die ∧ (s.cached (k.core / 8) k.ctx va true).isNone ∧ s.heldBy (.port k.core) = false then
        some (t, ⟨k.core, k.kid, k.ctx, va, true, none, none⟩)
      else none
    | none => none
  (port ++ poison ++ s.engineMisses die).foldl (fun l m => insertMiss m l) []
where
  /-- Insert by TIME, after equals. -/
  insertMiss (m : Nat × WalkReq) : List (Nat × WalkReq) → List (Nat × WalkReq)
    | [] => [m]
    | e :: t => if m.1 < e.1 then m :: e :: t else e :: insertMiss m t

/-- The walks that are under way: the first 64 misses of each die (R231, 01 R15). -/
def State.walks (s : State) : List WalkReq := (List.range 4).flatMap fun d => ((s.misses d).take 64).map (·.2)

/-- The miss of an engine that a walk ends. -/
def WalkReq.isMiss (r : WalkReq) (m : EMiss) : Bool :=
  r.engine == some m.engine && r.kid == m.kid && r.ctx == m.ctx && r.va == m.va && r.write == m.write

/-- PAGE_WALK (09 R230): the j-th walk, once the groups of its tables perform its reads (R235, R236), ends with a translation, or with a replayable fault of its requester, which holds the access
and every later one of the requester (R232; 05 R138). -/
def execPageWalk (j : Nat) (s : State) : Out :=
  match (s.walks.drop j).head? with
  | none => .next s
  | some r =>
    match s.reachTables r.ctx r.va with
    | (s, false) => .next s
    | (s, true) =>
      let s := { s with emiss := s.emiss.filter fun m => !r.isMiss m }
      match s.walk r.ctx r.va r.write with
      | .ok t =>
        let s := s.cacheFill (r.core / 8) r.ctx t
        .next (match r.seq with
          | some q => s.modItem r.core q fun i => { i with tr := some (t.trans r.va) }
          | none => s)
      | .error e =>
        .next (match r.engine with
          | some n => s.replayable (.engine r.kid n) r.ctx r.va e
          | none => s.replayable (.port r.core) r.ctx r.va e (r.seq.getD (s.core r.core).pseq))

/-! ## Ingress (R350) -/

/-- A request of the source stands at a line queue. -/
def State.sourceQueued (s : State) (src : Nat) : Bool :=
  s.lines.any fun l => l.2.any fun e => match e.agent with | .source n _ => n == src | _ => false

/-- One access of a source's request ends: its group was freed before it reached it, and it faults (09 R235). -/
def State.dropSource (s : State) (e : LEntry) : State :=
  match e.agent with
  | .source _ req => { s with reqs := s.reqs.map fun r => if r.1 = req then (r.1, { r.2 with left := r.2.left - 1, fault := true }) else r }
  | _ => s

/-- The entries of one fabric atomic go one after another, in order (R345). -/
def State.fabricWaits (s : State) (earlier : List LEntry) (e : LEntry) : Bool :=
  match e.agent with
  | .source _ req =>
    (match Tab.get? s.reqs req with | some r => r.amo.isSome | none => false)
      && ((earlier.any fun x => x.agent == e.agent) || s.lines.any fun l => l.2.any fun x => x.agent == e.agent)
  | _ => false

/-- INGRESS_MOVE (R350): request j of a source's FIFO; on SO and RC pages the head alone, after its predecessor has been
performed. -/
def execIngressMove (src j : Nat) (s : State) : Out :=
  let q := Tab.get [] s.ingress src
  match (q.drop j).head? with
  | none => .next s
  | some e =>
    let ordered := fun (x : LEntry) => x.tr.kind != .uo
    if ordered e && (decide (0 < j) || s.sourceQueued src) || s.fabricWaits (q.take j) e then .next s
    else
      let s := { s with ingress := Tab.put [] s.ingress src (dropAt q j) }
      .next (if (s.pan (groupOf e.pa)).alloc then s.enqueue e else s.dropSource e)

end Sys2Proof.Machine
end

