-- ==== Sys2Proof/Machine/EngineMem.lean ====
section
/-! DEFINITION. What engine operations share: when one may start (08 R212; 10 R277; 14 R376), its device-memory accesses on
their way to the line queues (13 R333, R347, R348; 09 R232, R248), its buffer accesses, and its completion (08 R213; 09
R251; 06 R162, R163). -/

namespace Sys2Proof.Machine

/-! ## Starting -/

/-- Every core of a launch has stopped or halted for a full pre-emption, so that its engines hold (09 R242, 15 R399). -/
def State.quiesced (s : State) (k : Kern) : Bool :=
  (match s.dom? k.dom with | some d => d.full | none => false)
    && (s.kerns.filter fun y => y.launch == k.launch).all fun y => y.ctl.stopped || y.ctl.halted

/-- The kernel's engines run: no hard stop, no pre-emption under way, no fault of the core (06 R168; 14 R382). -/
def State.enginesRun (s : State) (k : Kern) : Bool :=
  (match s.dom? k.dom with | some d => d.started && !d.hard | none => false) && !s.quiesced k && !k.ctl.dead

/-- The regions of a delayed write. -/
def DWrite.regions (d : DWrite) : List Nat :=
  d.writes.map (fun w => regionKey w.buf w.addr) ++ d.bits.map fun b => regionKey .ab b.1

/-- The regions of a scoreboard mark. -/
def MMark.regions (m : MMark) : List Nat :=
  match m.kind with
  | .tileW | .tileR => (List.range (m.hi + 1 - m.lo)).map fun i => regionKey .xs (8192 * (m.lo + i))
  | .granW | .granR => (List.range (m.hi + 1 - m.lo)).map fun i => regionKey .ws (2048 * (m.lo + i))
  | .abR | .abW => regionKeys .ab m.lo m.hi

/-- An operation's regions are clear of the core's writes in flight and of live scoreboard marks (08 R212, 10 R277). -/
def Kern.regionsClear (k : Kern) (o : Eop) : Bool :=
  !((k.dw.flatMap DWrite.regions).any o.regions.contains)
    && !(((k.mat.marks.filter fun m => decide (k.cyc ≤ m.last)).flatMap MMark.regions).any o.regions.contains)

/-- A queued operation that may start. -/
def Kern.startable (k : Kern) (o : Eop) : Bool := !o.started && !o.done && !o.held && k.regionsClear o

/-- The next operation of a port that serves its queue in order, one at a time: it may start now. -/
def Kern.nextOp (k : Kern) (e : Nat) : Option Eop :=
  if !(k.port e).runs.isEmpty then none
  else
    match (k.port e).q.find? fun o => !o.done with
    | some o => if k.startable o then some o else none
    | none => none

/-- A cursor at its beginning. -/
def Cursor.start : Cursor := ⟨0, 0, 0, 0, 0, 0, [], [], [], none⟩

/-- An operation begins to run. -/
def Port.startRun (p : Port) (o : Eop) (r : Run) : Port :=
  { p with
    q := p.q.map fun x => if x.id = o.id then { x with started := true } else x
    runs := p.runs ++ [r] }

/-- A run at its beginning. -/
def Run.start (o : Eop) : Run := ⟨o, ⟨[], [], [], none, 0⟩, Cursor.start, [], [], []⟩

/-! ## Device-memory accesses -/

/-- The reads of n bytes from an address, kept from `key` on. -/
def wantsOf (key va n : Nat) : List EWant := (cutPieces 64 (n / 64 + 2) 0 va n).map fun p => ⟨key + p.1, p.2.1, p.2.2⟩

/-- The bytes from a key on, if all have been read. -/
def EMem.bytes? (m : EMem) : Nat → Nat → Option (List CByte)
  | _, 0 => some []
  | key, n + 1 =>
    match Tab.get? m.cache key with
    | none => none
    | some b => (m.bytes? (key + 1) n).map (b :: ·)

/-- How many bytes from key 0 on have been read without a gap. -/
def EMem.readSoFar (m : EMem) : Nat := (findAt (fun e => e.2.1 != e.1) 0 ((List.range m.cache.length).zip m.cache)).elim m.cache.length (·.1)

/-- An operation has accesses at line queues. -/
def State.outstanding (s : State) (k e id : Nat) : Bool :=
  s.lines.any fun l => l.2.any fun x => x.agent == .engine k e id

/-- Every port access issued before the EGO has been performed (13 R347). -/
def State.portPast (s : State) (k : Kern) (o : Eop) : Bool :=
  (s.core k.core).port.all fun x => x.op.isFence || decide (o.pseq ≤ x.oldest) || !x.open_

/-- An access that a run may place: the position of its run, and the read or the write. -/
inductive ECand where
  | read (w : EWant)
  | write (w : EWrite)
  deriving DecidableEq, Repr, Inhabited

/-- Its address. -/
def ECand.va (c : ECand) : Nat := match c with | .read w => w.va | .write w => w.va
/-- It marks a sector, with an origin. -/
def ECand.mark (c : ECand) : Option Origin := match c with | .write w => w.mark | .read _ => none
/-- It writes. -/
def ECand.isWrite (c : ECand) : Bool := match c with | .read _ => false | .write _ => true

/-- The accesses of a run, reads before writes, each in stream order. -/
def Run.cands (r : Run) : List ECand := r.mem.want.map .read ++ r.mem.wq.map .write

/-- The run without an access. -/
def Run.without (r : Run) (c : ECand) : Run :=
  match c with
  | .read w => { r with mem := { r.mem with want := removeFirst w r.mem.want } }
  | .write w => { r with mem := { r.mem with wq := removeFirst w r.mem.wq } }

/-- Earlier accesses of the same direction in the run's order. -/
def Run.earlier (r : Run) (c : ECand) : List ECand := ((r.cands.filter fun x => x.isWrite == c.isWrite)).takeWhile (· != c)

/-- An access of engine e that the cluster's cache does not translate waits for the die's page walker, with the TIME of its arrival;
misses that are over are forgotten (09 R230, R231; 01 R15). -/
def State.engineMiss (s : State) (k : Kern) (e ctx va : Nat) (write : Bool) : State :=
  if s.emiss.any fun m => m.kid == k.kid && m.engine == e && m.ctx == ctx && m.va == va && m.write == write then s
  else
    let live := s.emiss.filter fun m =>
      match s.kern? m.kid with | some y => (s.cached (y.core / 8) m.ctx m.va m.write).isNone | none => false
    { s with emiss := live ++ [⟨k.kid, e, ctx, va, write, s.hub.time⟩] }

/-- The operation is a PUT, which writes into the context it names (16 R415). -/
def Eop.isPut (o : Eop) : Bool := o.code == 0x30 && bitsOf (o.reg 0) 12 12 == 1

/-- The context an access goes to. -/
def ECand.ctx (c : ECand) (k : Kern) (o : Eop) : Nat := if c.isWrite && o.isPut then bitsOf (o.reg 0) 55 50 else k.ctx

/-- The entry of an access. -/
def entryOf (k : Kern) (e : Nat) (o : Eop) (c : ECand) (t : Trans) : LEntry :=
  let x := c.ctx k o
  let a := Agent.engine k.kid e o.id.toNat
  match c with
  | .read w => ⟨a, false, w.key, t.pa, w.len, [], none, t, x⟩
  | .write w => ⟨a, true, w.va, t.pa, if w.mark.isSome then 32 else w.bytes.length, w.bytes, w.mark, t, x⟩

/-- The accesses that come before one in stream order: what is still to be written comes of bytes that were read before. -/
def Run.streamBefore (r : Run) (c : ECand) : List ECand := (if c.isWrite then [] else r.mem.wq.map .write) ++ r.earlier c

/-- Page kinds let an access go (13 R348): on SO pages alone and in stream order; a write after the operation's earlier writes to
its line, and after its earlier marks, any of which may end it (09 R248). -/
def State.kindAllows (s : State) (k e : Nat) (r : Run) (c : ECand) (t : Trans) : Bool :=
  (t.kind != .so || ((r.streamBefore c).isEmpty && !s.outstanding k e r.op.id.toNat))
    && !(c.isWrite && (r.earlier c).any fun x => x.va / 64 == c.va / 64 || (x.mark.isSome && !r.op.isPut))

/-- Place an access of a run of kernel k's engine e: a fault holds the requester; one that has no translation waits for a walk; a
marking write that meets a PCLEAN page ends the transfer there, once the writes before it have gone (09 R248), other than that of a PUT, whose marks are a MEMWR's (16 R415). -/
def State.placeAccess (s : State) (k : Kern) (e : Nat) (r : Run) (c : ECand) : State :=
  if s.heldBy (.engine k.kid e) || !s.portPast k r.op then s
  else
    match s.cached (k.core / 8) (c.ctx k r.op) c.va c.isWrite with
    | none => s.engineMiss k e (c.ctx k r.op) c.va c.isWrite
    | some t =>
      let id := r.op.id.toNat
      if c.mark.isSome && t.pclean && !r.op.isPut then
        if !(r.earlier c).isEmpty then s
        else s.modKern k.kid fun y => y.modPort e fun p => p.modRun id fun x =>
          { x with mem := { x.mem with want := [], wq := [], pclean := c.mark, refused := c.va }, cur := { x.cur with words := [] } }
      else if !s.kindAllows k.kid e r c t then s
      else
        (s.modKern k.kid fun y => y.modPort e fun p => p.modRun id fun x => x.without c).enqueue (entryOf k e r.op c t)

/-- Writes to device memory of bytes with marks, sector by sector: a sector that receives a marked byte is written as a
marked sector (09 R248). `marks` are the sectors that the operation has marked so far. -/
def deviceWrites (va : Nat) (l : List CByte) (marks : Tab Origin) : List EWrite × Tab Origin :=
  (cutPieces 32 (l.length / 32 + 2) 0 va l.length).foldl (fun (acc : List EWrite × Tab Origin) p =>
    let part := (l.drop p.1).take p.2.2
    let sec := p.2.1 / 32
    match mergePoison (part.map (·.mark)) with
    | none => (acc.1 ++ [⟨p.2.1, part.map (·.b), none⟩], acc.2)
    | some o =>
      let o := (mergePoison [some o, Tab.get? acc.2 sec]).getD o
      (acc.1 ++ [⟨32 * sec, [], some o⟩], Tab.set acc.2 sec o)) ([], marks)

/-! ## Buffer accesses -/

/-- The taker of an origin for an engine's access (14 R365): its operation code, its identifier as the location. -/
def Run.taker (r : Run) (k e : Nat) : Taker := .kern k e r.op.id.toNat r.op.code

/-- Bytes of a buffer with the marks of their sectors. -/
def Buf.cbytes (x : Buf) (addr n : Nat) : List CByte :=
  (List.range n).map fun i => ⟨x.mem.byte (addr + i), x.markAt (addr + i)⟩

/-- An engine reads a buffer: uncorrectable words are consumed first (08 R200). -/
def State.readBuf (s : State) (k : Nat) (t : Taker) (b : BufId) (addr n : Nat) : State × List CByte :=
  let s := s.consumeBuf k t b addr n
  (s, ((s.kern k).buf b).cbytes addr n)

/-- Writes to a buffer of bytes with marks, as `deviceWrites`. -/
def bufferWrites (b : BufId) (addr : Nat) (l : List CByte) (marks : Tab Origin) : List BWrite × Tab Origin :=
  let (w, m) := deviceWrites addr l marks
  (w.map fun x => ⟨b, x.va, x.bytes, x.mark⟩, m)

/-! ## Completion -/

/-- The done operations at the head of a port's queue, which XDONE then covers. -/
def donePrefix (q : List Eop) : List Eop := q.takeWhile (·.done)

/-- An operation of engine e ends: XDONE covers it once every earlier one has ended, and its regions return to CORE where no
other operation of the engine names them (08 R213); a completion interrupt becomes pending (06 R163). -/
def Kern.completeOp (k : Kern) (e : Nat) (id : BitVec 32) : Kern :=
  let p := k.port e
  let cui := p.q.any fun o => o.id == id && o.cui
  let q := p.q.map fun o => if o.id = id then { o with done := true } else o
  let gone := donePrefix q
  let rest := q.drop gone.length
  let back := (gone.flatMap (·.regions)).filter fun key => !rest.any fun o => o.regions.contains key
  let k := k.modPort e fun p =>
    { p with q := rest, runs := p.runs.filter (fun r => r.op.id != id), xdone := match gone.getLast? with | some o => o.id | none => p.xdone }
  let k := k.takeRegions (back.filter fun key => Tab.get 0 k.own key == e + 1)
  if cui then { k with ctl := { k.ctl with cui := k.ctl.cui ++ [(e, id)] } } else k

/-- A record of ERD: the identifier in bits 63:32, a value below. -/
def record (id : BitVec 32) (v : Nat) : Word := wordOf (id.toNat * 2 ^ 32 + v % 2 ^ 32)

/-- A POISON status to be reported at a WAITX (06 R162). -/
def Port.reportPoison (p : Port) (id : BitVec 32) (o : Origin) : Port := { p with reports := p.reports ++ [(id, o)] }

end Sys2Proof.Machine
end

