-- ==== Sys2Proof/Machine/Copy.lean ====
section
/-! DEFINITION. The copy channels (09 R242-R251; 03 R56-R58): PLAIN and EXPAND transfers, sums and CRCs, completion. -/

namespace Sys2Proof.Machine

/-! ## The nest (R246) -/

/-- The fields an operation captured. -/
def Eop.copy (o : Eop) : CopyRec := copyRec fun n => o.reg n

/-- The number of chunks. -/
def CopyRec.chunks (c : CopyRec) : Nat := c.cnt.foldl (fun a n => a * (n + 1)) 1

/-- The stream's length. -/
def CopyRec.total (c : CopyRec) : Nat := c.len * c.chunks

/-- The byte offset of a chunk: level 0 is innermost. -/
def nestOffset : List Nat → List Int → Nat → Int
  | n :: cs, s :: ss, i => ((i % (n + 1) : Nat) : Int) * s + nestOffset cs ss (i / (n + 1))
  | _, _, _ => 0

/-- The source tensor of a transfer. -/
def Eop.src (o : Eop) : Tens := o.tens.headD default

/-- The destination tensor: the one captured after the source and its companions. -/
def Eop.dst (o : Eop) : Tens := (o.tens.find? fun t => t.idx == o.copy.dt && !o.copy.expand).getD default

/-- The source address of a chunk. -/
def Eop.srcAt (o : Eop) (i : Nat) : Nat :=
  let c := o.copy
  ((o.src.fields.base : Int) + c.soff + nestOffset c.cnt c.sstr i).toNat

/-- The destination address of a chunk. -/
def Eop.dstAt (o : Eop) (i : Nat) : Nat :=
  let c := o.copy
  ((o.dst.fields.base : Int) + c.doff + nestOffset c.cnt c.dstr i).toNat

/-- The source lies in device memory; the destination does. -/
def Eop.srcDevice (o : Eop) : Bool := o.src.fields.buf == .dm
/-- The destination lies in device memory. -/
def Eop.dstDevice (o : Eop) : Bool := o.dst.fields.buf == .dm

/-! ## Sums and CRCs (R250) -/

/-- SUM32 over bytes, a final partial word padded with zeros. -/
def sum32 : Nat → List Byte → Nat → Nat
  | 0, _, acc => acc
  | fuel + 1, l, acc => if l.isEmpty then acc else sum32 fuel (l.drop 4) ((acc + leNat (l.take 4)) % 2 ^ 32)

/-- One bit of the reflected CRC-32C. -/
def crcBit (c : BitVec 32) : BitVec 32 := if c.getLsbD 0 then (c >>> 1) ^^^ 0x82F63B78 else c >>> 1

/-- One byte of it. -/
def crcByte (c : BitVec 32) (b : Byte) : BitVec 32 :=
  crcBit (crcBit (crcBit (crcBit (crcBit (crcBit (crcBit (crcBit (c ^^^ b.setWidth 32))))))))

/-- CRC32C over bytes from an initial value. -/
def crc32c (init : Nat) (l : List Byte) : Nat := (~~~(l.foldl crcByte (~~~(BitVec.ofNat 32 init)))).toNat

/-- The value of a transfer over the bytes it counts. -/
def CopyRec.value (c : CopyRec) (l : List Byte) : Nat :=
  match c.chk with
  | 1 => sum32 (l.length + 1) l c.init
  | 2 => crc32c c.init l
  | _ => 0

/-! ## Starting (R242, R245) -/

/-- A chunk read from a buffer, entered by its place in the stream. -/
def State.readChunk (s : State) (k e : Nat) (o : Eop) (i : Nat) : State :=
  let len := o.copy.len
  let (s, l) := s.readBuf k (.kern k e o.id.toNat o.code) o.src.fields.buf (o.srcAt i) len
  s.modKern k fun y => y.modPort e fun p => p.modRun o.id.toNat fun r => { r with mem := r.mem.store (len * i) l }

/-- A PLAIN transfer wants its chunks read: those of a buffer are there at once, since the channel owns the regions. -/
def State.readChunks (s : State) (k e : Nat) (o : Eop) : State :=
  let ix := List.range o.copy.chunks
  let s := s.modKern k fun y => y.modPort e fun p => p.modRun o.id.toNat fun r => { r with cur := { r.cur with words := ix } }
  if o.srcDevice then
    let wants := ix.flatMap fun i => wantsOf (o.copy.len * i) (o.srcAt i) o.copy.len
    s.modKern k fun y => y.modPort e fun p => p.modRun o.id.toNat fun r => { r with mem := { r.mem with want := wants } }
  else ix.foldl (fun s i => s.readChunk k e o i) s

/-- COPY_TRANSFER_START (R242): the channel's next queued transfer. -/
def execCopyTransferStart (k e : Nat) (s : State) : Out :=
  match s.kern? k with
  | none => .next s
  | some x =>
    if 4 ≤ e || !s.enginesRun x then .next s
    else
      match x.nextOp e with
      | none => .next s
      | some o =>
        let s := s.modKern k fun y => y.modPort e fun p => p.startRun o (.start o)
        .next (if o.copy.expand then s else s.readChunks k e o)

/-! ## PLAIN (R247, R248) -/

/-- The 64-byte lines of a destination that a chunk reaches. -/
def Eop.dstLines (o : Eop) (i : Nat) : Nat × Nat := (o.dstAt i / 64, (o.dstAt i + o.copy.len - 1) / 64)

/-- An earlier chunk that has not moved reaches a line of this chunk's destination. -/
def Run.chunkBlocked (r : Run) (i : Nat) : Bool :=
  (r.cur.words.filter fun j => decide (j < i)).any fun j =>
    let a := r.op.dstLines i
    let b := r.op.dstLines j
    decide (a.1 ≤ b.2) && decide (b.1 ≤ a.2)

/-- A chunk bound for a page of kind SO, or one that is not known yet, moves after every earlier chunk: its writes go out in stream
order (13 R348). -/
def State.chunkWaits (s : State) (k : Nat) (r : Run) (i : Nat) : Bool :=
  let x := s.kern k
  let free := fun (va : Nat) => match s.cached (x.core / 8) x.ctx va true with | some t => t.kind != .so | none => false
  r.op.dstDevice && (r.cur.words.any fun j => decide (j < i))
    && !(free (r.op.dstAt i) && free (r.op.dstAt i + r.op.copy.len - 1))

/-- A copy of n bytes to an NS address clears the record of each frame it reaches (11 R282). -/
def Circ.spoil (c : Circ) (addr n : Nat) : Circ :=
  let c := if addr < 0x10000 ∧ 0 < n then { c with frame0 := none } else c
  if addr < 0x20000 ∧ 0x10000 < addr + n then { c with frame1 := none } else c

/-- A chunk whose bytes have been read moves to its destination: into a buffer at once, towards device memory as writes. -/
def State.moveChunk (s : State) (k e : Nat) (id i : Nat) : State :=
  match ((s.kern k).port e).runs.find? fun r => r.op.id.toNat == id with
  | none => s
  | some r =>
    let o := r.op
    match (if r.chunkBlocked i || s.chunkWaits k r i then none else r.mem.bytes? (o.copy.len * i) o.copy.len) with
    | none => s
    | some l =>
      let done := fun (r : Run) => { r with cur := { r.cur with words := r.cur.words.filter (· != i) } }
      if o.dstDevice then
        let (w, m) := deviceWrites (o.dstAt i) l r.cur.marks
        s.modKern k fun y => y.modPort e fun p => p.modRun id fun r =>
          let r := done r
          { r with mem := { r.mem with wq := r.mem.wq ++ w }, cur := { r.cur with marks := m } }
      else
        let (w, m) := bufferWrites o.dst.fields.buf (o.dstAt i) l r.cur.marks
        let s := s.writeBufs k (r.taker k e) w
        let s := if o.dst.fields.buf = .ns then s.modKern k fun y => { y with circ := y.circ.spoil (o.dstAt i) l.length } else s
        s.modKern k fun y => y.modPort e fun p => p.modRun id fun r =>
          let r := done r
          { r with cur := { r.cur with marks := m } }

/-- Every chunk that can move does. -/
def State.moveChunks (s : State) (k e : Nat) : State :=
  match ((s.kern k).port e).runs with
  | r :: _ => if r.op.copy.expand then s else r.cur.words.foldl (fun s i => s.moveChunk k e r.op.id.toNat i) s
  | [] => s

/-! ## EXPAND (R249, R57) -/

/-- The reads of stream bytes from `off` on, piece by piece. -/
def Eop.streamPieces (o : Eop) : Nat → Nat → Nat → List EWant
  | 0, _, _ => []
  | fuel + 1, off, n =>
    if n = 0 ∨ o.copy.total ≤ off then []
    else
      let a := o.srcAt (off / o.copy.len) + off % o.copy.len
      let m := min (min n (o.copy.len - off % o.copy.len)) (64 - a % 64)
      ⟨off, a, m⟩ :: o.streamPieces fuel (off + m) (n - m)

/-- The stream bytes that the next bundle still needs: its header, then as many as the header says. -/
def Run.expandNeed (r : Run) : Option (Nat × Nat) :=
  let off := r.cur.n
  if r.op.copy.bundles ≤ r.cur.m ∨ r.cur.fin.isSome then none
  else
    match r.mem.bytes? off 4 with
    | none => some (off, min 4 (r.op.copy.total - off))
    | some h =>
      let hd := BitVec.ofNat 32 (leNat (h.map (·.b)))
      if (h.any fun b => b.mark.isSome) ∨ 10 ≤ hdrNlit hd then none
      else some (off + 4, min (packedLen hd - 4) (r.op.copy.total - off - 4))

/-- Ask for what the next bundle needs, where nothing is asked for yet. -/
def Run.expandWants (r : Run) (out : Bool) : Run :=
  if !r.mem.want.isEmpty || out then r
  else
    match r.expandNeed with
    | none => r
    | some (off, n) =>
      { r with mem := { r.mem with want := (r.op.streamPieces (n + 1) off n).filter fun w =>
        (r.mem.bytes? w.key w.len).isNone } }

/-- The wants of an EXPAND from a buffer are read at once. -/
def State.expandFromBuffer (s : State) (k e : Nat) (r : Run) : State :=
  match r.expandNeed with
  | none => s
  | some (off, n) =>
    (r.op.streamPieces (n + 1) off n).foldl (fun s w =>
      let (s, l) := s.readBuf k (r.taker k e) r.op.src.fields.buf w.va w.len
      s.modKern k fun y => y.modPort e fun p => p.modRun r.op.id.toNat fun r => { r with mem := r.mem.store w.key l }) s

/-- The running transfer of a channel. -/
def State.copyRun (s : State) (k e : Nat) : Option Run := ((s.kern k).port e).runs.head?

/-- What an EXPAND finds at the next bundle: an early end (status, origin), the bundle with its packed length, or that
bytes are missing. -/
inductive Unpacked where
  | fin (status origin : Nat)
  | bundle (b : BitVec 512) (n : Nat)
  | missing
  deriving DecidableEq, Repr, Inhabited

/-- The next bundle of the stream (R249): a marked header ends the transfer before its NLIT is judged. -/
def Run.nextBundle (r : Run) : Unpacked :=
  let off := r.cur.n
  let left := r.op.copy.total - off
  if left < 4 then .fin 2 0
  else
    match r.mem.bytes? off 4 with
    | none => .missing
    | some h =>
      let hd := BitVec.ofNat 32 (leNat (h.map (·.b)))
      match mergePoison (h.map (·.mark)) with
      | some o => .fin 3 o.toNat
      | none =>
        if 10 ≤ hdrNlit hd then .fin 1 0
        else if left < packedLen hd then .fin 2 0
        else
          match r.mem.bytes? off (packedLen hd) with
          | none => .missing
          | some l =>
            match mergePoison (l.map (·.mark)) with
            | some o => .fin 3 o.toNat
            | none => .bundle (unpackBundle (l.map (·.b))) (packedLen hd)

/-- A half becomes stale (06 R145). -/
def Ctl.makeStale (c : Ctl) (half : Nat) : Ctl :=
  if half = 0 then { c with stale0 := true } else if half = 1 then { c with stale1 := true } else c

/-- EXPAND_BUNDLE_WRITE (R249, R58): at most one bundle of a channel in a cycle (R253). -/
def execExpandBundleWrite (k e : Nat) (s : State) : Out :=
  match s.kern? k, s.copyRun k e with
  | some x, some r =>
    if 4 ≤ e || !s.enginesRun x || !r.op.copy.expand || r.cur.fin.isSome || decide (r.op.copy.bundles ≤ r.cur.m)
        || decide (s.hub.time < r.cur.acc) then .next s
    else
      let s := if r.op.srcDevice then s
        else
          let s := s.expandFromBuffer k e r
          match s.copyRun k e with | some r => s.expandFromBuffer k e r | none => s
      match s.copyRun k e with
      | none => .next s
      | some r =>
        let upd := fun (s : State) f => s.modKern k fun y => y.modPort e fun p => p.modRun r.op.id.toNat f
        match r.nextBundle with
        | .missing => .next s
        | .fin st o => .next (upd s fun r => { r with mem := { r.mem with want := [] }, cur := { r.cur with fin := some (st, o) } })
        | .bundle b n =>
          let a := r.op.copy.daddr + r.cur.m
          let s := s.modCore x.core fun c => { c with is := Tab.put 0 c.is a b, old := Tab.set c.old a (Tab.get 0 c.is a), isUe := c.isUe.filter (· != a), isCe := c.isCe.filter (· != a) }
          let s := s.modKern k fun y => { y with ctl := y.ctl.makeStale (isHalf a) }
          .next (upd s fun r => { r with cur := { r.cur with n := r.cur.n + n, m := r.cur.m + 1, acc := s.hub.time + 1 } })
  | _, _ => .next s

/-! ## Completion (R250-R252) -/

/-- The transfer has done all it will do. -/
def State.copyOver (s : State) (k e : Nat) (r : Run) : Bool :=
  r.mem.want.isEmpty && r.mem.wq.isEmpty && !s.outstanding k e r.op.id.toNat
    && (if r.op.copy.expand then r.cur.fin.isSome || decide (r.op.copy.bundles ≤ r.cur.m) else r.cur.words.isEmpty)

/-- Status and origin of a transfer that is over. -/
def Run.copyStatus (r : Run) : Nat × Origin :=
  match r.mem.pclean, r.cur.fin with
  | some o, _ => (3, o)
  | none, some (st, o) => (st, BitVec.ofNat 15 o)
  | none, none => (0, 0)

/-- Bytes counted (R250, R252 index 4). -/
def Run.copyCount (r : Run) : Nat := if r.op.copy.expand then r.cur.n else r.mem.readSoFar

/-- The records that a completed transfer leaves (R252). POIS says that a byte counted came from a marked sector, with or
without a sum (DEDUCED, log). -/
def Run.copyRecords (r : Run) (recs : Tab Word) : Tab Word :=
  let c := r.op.copy
  let n := r.copyCount
  let l := (r.mem.cache.take n).map (·.2)
  let (st, _) := r.copyStatus
  let pois := l.any fun b => b.mark.isSome
  let t := Tab.put 0 recs 2 (record r.op.id (st + (if pois then 2 ^ 8 else 0)))
  let t := if c.chk = 0 then t else Tab.put 0 t 3 (record r.op.id (c.value (l.map (·.b))))
  let t := Tab.put 0 t 4 (record r.op.id (min n (2 ^ 32 - 1)))
  if st = 0 then t else Tab.put 0 t 5 (record r.op.id st)

/-- The halves that an EXPAND has written into, those between its first and its last bundle among them (R249). -/
def Run.staleHalves (r : Run) : List Nat :=
  [0, 1].filter fun h => decide (isHalf r.op.copy.daddr ≤ h) && decide (h ≤ isHalf (r.op.copy.daddr + r.cur.m - 1))

/-- COPY_COMPLETE (R251). -/
def execCopyComplete (k e : Nat) (s : State) : Out :=
  if 4 ≤ e then .next s
  else
    let s := match s.kern? k with | some x => if s.enginesRun x then s.moveChunks k e else s | none => s
    match s.kern? k, s.copyRun k e with
    | some x, some r =>
      if !s.enginesRun x || !s.copyOver k e r then .next s
      else
        let (st, o) := r.copyStatus
        .next (s.modKern k fun y =>
          let y := y.modPort e fun p =>
            let p := { p with recs := r.copyRecords p.recs }
            if st = 3 then p.reportPoison r.op.id o else p
          let y := if r.op.copy.expand && r.cur.m != 0 then { y with ctl := r.staleHalves.foldl Ctl.makeStale y.ctl } else y
          y.completeOp e r.op.id)
    | _, _ => .next s

end Sys2Proof.Machine
end

