-- ==== Sys2Proof/Machine/Key.lean ====
section
/-! DEFINITION. The key engine (12 R313-R330). An operation reads its lengths, then its inputs up to those lengths; what it
then does is a function of them, which its steps carry out 256 work elements at a time. -/

namespace Sys2Proof.Machine

/-! ## Elements -/

/-- A tensor an operation captured, by its index. -/
def Eop.ten (o : Eop) (n : Nat) : Tens := (o.tens.find? fun t => t.idx == n).getD default

/-- The value tensor of a KEYS tensor (R317). -/
def Eop.valueOf (o : Eop) (t : Tens) : Option Tens :=
  let a := t.fields.aux.getD 0 0xFF
  if t.fields.layout = 3 ∧ a ≠ 0xFF then some (o.ten a) else none

/-- The byte address of element i of a one-dimensional tensor. -/
def Tens.elemAddr (t : Tens) (i : Nat) : Nat := t.bitAddr (t.offset i 0 0 0) / 8

/-- Bytes of an element. -/
def Tens.elemBytes (t : Tens) : Nat := t.format.w / 8

/-- SIZE0 + 1. -/
def Tens.cap (t : Tens) : Nat := t.fields.sz 0

/-- The key of a byte among those an operation has read: its device address, or its buffer address above them. -/
def Tens.key (t : Tens) (addr : Nat) : Nat := if t.fields.buf = .dm then addr else 2 ^ 50 + addr

/-- Element i as it was read: its bits, and the origin of a marked sector. -/
def Run.elem (r : Run) (t : Tens) (i : Nat) : Nat × Option Origin :=
  match r.mem.bytes? (t.key (t.elemAddr i)) t.elemBytes with
  | some l => (leNat (l.map (·.b)), mergePoison (l.map (·.mark)))
  | none => (0, none)

/-- The byte ranges of elements lo to lo + n - 1. -/
def Tens.elemRanges (t : Tens) (lo n : Nat) : List (Nat × Nat) :=
  if n = 0 then []
  else if t.fields.str 0 = 1 then [(t.elemAddr lo, n * t.elemBytes)]
  else (List.range n).map fun i => (t.elemAddr (lo + i), t.elemBytes)

/-- The byte ranges of the first n elements, a sector at a time where they are contiguous: offset, address and count. A write of them
so clears the mark of a sector that it covers whole (04 R93). -/
def Tens.pieces (t : Tens) (n : Nat) : List (Nat × Nat × Nat) :=
  let b := t.elemBytes
  if t.fields.str 0 = 1 then cutPieces 32 (n * b / 32 + 2) 0 (t.elemAddr 0) (n * b)
  else (List.range n).map fun i => (b * i, t.elemAddr i, b)

/-- The state with a running operation changed. -/
def State.modRun (s : State) (k e id : Nat) (f : Run → Run) : State :=
  s.modKern k fun y => y.modPort e fun p => p.modRun id f

/-- Fetch elements: a buffer's at once, device memory's through the line queues. -/
def State.fetchElems (s : State) (k e : Nat) (o : Eop) (t : Tens) (lo n : Nat) : State :=
  (t.elemRanges lo n).foldl (fun s r =>
    if t.fields.buf = .dm then
      s.modRun k e o.id.toNat fun x => { x with mem := { x.mem with want := x.mem.want ++ wantsOf r.1 r.1 r.2 } }
    else
      let (s, l) := s.readBuf k (.kern k e o.id.toNat o.code) t.fields.buf r.1 r.2
      s.modRun k e o.id.toNat fun x => { x with mem := x.mem.store (t.key r.1) l }) s

/-! ## The fields of an operation (R315) -/

/-- Field n of KE0: TA, TB, TO, TX, TH, TN. -/
def Eop.keyField (o : Eop) (n : Nat) : Nat := bitsOf (o.reg 0) (8 * n + 7) (8 * n)
/-- The tensor of field n of KE0. -/
def Eop.keyTen (o : Eop) (n : Nat) : Tens := o.ten (o.keyField n)
/-- LOG2. -/
def Eop.log2 (o : Eop) : Nat := bitsOf (o.reg 3) 20 16
/-- CIDX. -/
def Eop.cidx (o : Eop) : Nat := bitsOf (o.reg 3) 63 32

/-- The operation measures a second input. -/
def Eop.twoInputs (o : Eop) : Bool := o.code == 0x10 || o.code == 0x11

/-- The length tensor of KE1 or KE2; none where the field is the length. -/
def Eop.lengthTen (o : Eop) (n : Nat) : Option Tens :=
  let f := bitsOf (o.reg n) 39 32
  if f = 0xFF then none else some (o.ten f)

/-- A length (R316): status and origin where it ends the operation. -/
def Run.length (r : Run) (n cap : Nat) : Except (Nat × Origin) Nat :=
  let na := bitsOf (r.op.reg n) 31 0
  let fit := fun l => if cap < l then Except.error (0x23, 0) else .ok l
  match r.op.lengthTen n with
  | none => fit na
  | some t =>
    if t.cap ≤ na then .error (0x23, 0)
    else
      match r.elem t na with
      | (_, some o) => .error (0x24, o)
      | (v, none) => fit v

/-- The lengths of an operation. EXPAND's is held against its row pointer later (R321). -/
def Run.lengths (r : Run) : Except (Nat × Origin) (Nat × Nat) := do
  let la ← r.length 1 (if r.op.code = 0x12 then 2 ^ 32 else (r.op.keyTen 0).cap)
  let lb ← (if r.op.twoInputs then r.length 2 (r.op.keyTen 1).cap else .ok 0)
  return (la, lb)

/-! ## Results -/

/-- What an operation has done: the output count, the second count, the work position, its outputs. -/
structure KWork where
  n1 : Nat
  n2 : Nat
  pos : Nat
  outs : List EOut
  deriving DecidableEq, Repr, Inhabited

/-- Nothing done. -/
def KWork.start : KWork := ⟨0, 0, 0, []⟩

/-- How an operation ends: OK, or a status with an origin. -/
abbrev KEnd := Nat × Origin

/-- A value with the origin of an integer poison (R319). -/
abbrev KVal := Nat × Option Origin

/-- Add outputs at the present work position, that of the elements they come of included. -/
def KWork.put (w : KWork) (l : List EOut) : KWork :=
  { w with outs := w.outs ++ l.map fun o => { o with at_ := w.pos, n1 := w.n1, n2 := w.n2 } }

/-- An element written. -/
def Tens.out (t : Tens) (i : Nat) (v : KVal) : EOut :=
  ⟨0, t.fields.buf, t.elemAddr i, leBytes t.elemBytes v.1, v.2, 0, 0⟩

/-- A word written. -/
def Tens.outWord (t : Tens) (i v : Nat) : EOut := t.out i (v % 2 ^ 32, none)

/-- The check of a sorted or unsorted key (R319). -/
def keyCheck (key : Nat → KVal) (i : Nat) (sorted : Bool) : Option KEnd :=
  match (key i).2 with
  | some o => some (0x24, o)
  | none => if sorted && decide (0 < i) && decide ((key i).1 < (key (i - 1)).1) then some (0x20, 0) else none

/-- A value as it was read: a binary32 from a marked sector is that poison's encoding (R319). -/
def Run.value (r : Run) (t : Tens) (i : Nat) : KVal :=
  match r.elem t i with
  | (v, some o) => if t.format.kind = 2 then (poisonBits .f32 o, none) else (v, some o)
  | (v, none) => (v, none)

/-- Comb (R320). -/
def comb (kind op : Nat) (v e : KVal) : Arith KVal := do
  if op = 2 then return v
  if kind = 2 then
    let a := decodeF .f32 v.1
    let b := decodeF .f32 e.1
    let x ← (if op = 0 then fpAdd 0 a b else fpMinMax true a b)
    return ((← roundTo .f32 x 0 false).toBits .f32, none)
  match mergePoison [v.2, e.2] with
  | some o => return (0, some o)
  | none =>
    if op = 0 then return ((v.1 + e.1) % 2 ^ 32, none)
    let less := if kind = 6 then decide (signExt 32 v.1 < signExt 32 e.1) else decide (v.1 < e.1)
    return (if less then e.1 else v.1, none)

/-- The combination of a group's values. -/
def combAll (kind op : Nat) : KVal → List KVal → Arith KVal
  | v, [] => pure v
  | v, e :: t => do combAll kind op (← comb kind op v e) t

/-- A value that is zero and not poison. -/
def KVal.isZero (kind : Nat) (v : KVal) : Bool := v.2.isNone && (if kind = 2 then v.1 % 2 ^ 31 == 0 else v.1 == 0)

/-! ## MERGE and INTER (R320) -/

/-- The entries of one input that hold key k from position i on: how many, and the check that ends the operation at the
entry after the last one taken. -/
def takeKey (key : Nat → KVal) (len k : Nat) : Nat → Nat → Nat × Option KEnd
  | 0, i => (i, none)
  | fuel + 1, i =>
    if len ≤ i ∨ (key i).1 ≠ k then (i, none)
    else
      match (if i + 1 < len then keyCheck key (i + 1) true else none) with
      | some e => (i + 1, some e)
      | none => takeKey key len k fuel (i + 1)

/-- The inputs and outputs of MERGE and INTER. -/
structure MergeOp where
  inter : Bool
  keyA : Nat → KVal
  keyB : Nat → KVal
  valA : Nat → KVal
  valB : Nat → KVal
  la : Nat
  lb : Nat
  kind : Nat
  comb : Nat
  dropz : Bool
  out : Tens
  vals : Option Tens
  cols : Option Tens
  cap : Nat

/-- MERGE and INTER, group by group. An entry's value is written before its key: nothing of an entry whose value a PCLEAN page
refuses is written (R320). -/
def mergeLoop (m : MergeOp) : Nat → Nat → Nat → KWork → Arith (KWork × KEnd)
  | 0, _, _, w => pure (w, (0, 0))
  | fuel + 1, i, j, w => do
    if m.la ≤ i ∧ m.lb ≤ j then return (w, (0, 0))
    let k := match decide (i < m.la), decide (j < m.lb) with
      | true, true => min (m.keyA i).1 (m.keyB j).1
      | true, false => (m.keyA i).1
      | _, _ => (m.keyB j).1
    let (i', ea) := takeKey m.keyA m.la k (m.la + 1) i
    match ea with
    | some e => return ({ w with pos := i' + j }, e)
    | none => pure ()
    let (j', eb) := takeKey m.keyB m.lb k (m.lb + 1) j
    let w := { w with pos := i' + j' }
    match eb with
    | some e => return (w, e)
    | none => pure ()
    if m.inter && (i' == i || j' == j) then mergeLoop m fuel i' j' w
    else
      let group := (List.range (i' - i)).map (fun n => m.valA (i + n)) ++ (List.range (j' - j)).map fun n => m.valB (j + n)
      let v ← (if m.vals.isSome then combAll m.kind m.comb (group.headD (0, none)) (group.drop 1) else return (0, none))
      let n := w.n1
      if m.vals.isSome && m.dropz && v.isZero m.kind then mergeLoop m fuel i' j' { w with n2 := w.n2 + 1 }
      else if m.cap ≤ n then return (w, (0x21, 0))
      else
        let outs := (match m.vals with | some t => [t.out n v] | none => []) ++ m.out.outWord n k
          :: (match m.cols with | some t => [t.outWord n (k % 2 ^ 16)] | none => [])
        mergeLoop m fuel i' j' { w.put outs with n1 := n + 1 }

/-- MERGE and INTER of a run whose inputs have been read. -/
def Run.merge (r : Run) (la lb : Nat) : Arith (KWork × KEnd) := do
  let o := r.op
  let a := o.keyTen 0
  let b := o.keyTen 1
  let out := o.keyTen 2
  let vals := o.valueOf out
  let cols := if o.keyField 3 = 0xFF then none else some (o.keyTen 3)
  let val := fun (t : Tens) i =>
    match o.valueOf t with
    | some v => if i < v.cap then r.value v i else (0, none)
    | none => (0, none)
  let caps := [some out, vals, cols].filterMap fun t => t.map Tens.cap
  let m : MergeOp := ⟨o.code == 0x11, r.elem a, r.elem b, val a, val b, la, lb,
    (match vals with | some v => v.format.kind | none => 9), bitsOf (o.reg 3) 1 0, bitsOf (o.reg 3) 2 2 == 1, out, vals, cols,
    caps.foldl min (2 ^ 32)⟩
  match (if 0 < la then keyCheck m.keyA 0 true else none), (if 0 < lb then keyCheck m.keyB 0 true else none) with
  | some e, _ => return (.start, e)
  | none, some e => return (.start, e)
  | none, none => mergeLoop m (la + lb + 1) 0 0 .start

/-! ## EXPAND (R321) -/

/-- The row pointer, the columns of a CSR tensor. -/
def Eop.csr (o : Eop) : Tens × Tens :=
  let t := (o.keyTen 0).fields
  (o.ten (t.aux.getD 0 0xFF), o.ten (t.aux.getD 1 0xFF))

/-- The smaller of the column and the value capacity. -/
def Eop.csrCap (o : Eop) : Nat := min o.csr.2.cap (o.keyTen 0).cap

/-- The entries of one row. -/
def expandRow (r : Run) (row : Nat) : Nat → Nat → KWork → KWork × Option KEnd
  | 0, _, w => (w, none)
  | fuel + 1, p, w =>
    let o := r.op
    let out := o.keyTen 2
    let vals := o.valueOf out
    let c := r.elem o.csr.2 p
    match c.2 with
    | some g => (w, some (0x24, g))
    | none =>
      if 2 ^ 16 ≤ c.1 then (w, some (0x23, 0))
      else if min out.cap (match vals with | some t => t.cap | none => 2 ^ 32) ≤ w.n1 then (w, some (0x21, 0))
      else
        let v : KVal := if vals.isSome then r.value (o.keyTen 0) p else (0, none)
        let w := { w with pos := w.pos + 1 }.put
          ((match vals with | some t => [t.out w.n1 v] | none => []) ++ [out.outWord w.n1 (row * 2 ^ 16 + c.1)])
        expandRow r row fuel (p + 1) { w with n1 := w.n1 + 1 }

/-- The rows of EXPAND from `row` on. -/
def expandRows (r : Run) : Nat → Nat → KWork → KWork × KEnd
  | 0, _, w => (w, (0, 0))
  | fuel + 1, row, w =>
    let ptr := r.op.csr.1
    let w := { w with pos := w.pos + 1, n2 := row + 1 }
    match keyCheck (r.elem ptr) (row + 1) false with
    | some e => (w, e)
    | none =>
      let p0 := (r.elem ptr row).1
      let p1 := (r.elem ptr (row + 1)).1
      if p1 < p0 ∨ r.op.csrCap < p1 then (w, (0x23, 0))
      else
        match expandRow r row (p1 - p0) p0 w with
        | (w, some e) => (w, e)
        | (w, none) => expandRows r fuel (row + 1) w

/-- EXPAND ends before its first row. -/
def Run.expandEarly (r : Run) (len : Nat) : Option KEnd :=
  if 65536 < len ∨ r.op.csr.1.cap < len + 1 then some (0x23, 0)
  else
    match keyCheck (r.elem r.op.csr.1) 0 false with
    | some e => some e
    | none => if r.op.csrCap < (r.elem r.op.csr.1 0).1 then some (0x23, 0) else none

/-- The columns and values that EXPAND reads: from P[0] to the greatest row pointer within the capacity. -/
def Run.expandSpan (r : Run) (len : Nat) : Nat × Nat :=
  let p := (List.range (len + 1)).map fun i => (r.elem r.op.csr.1 i).1
  let hi := min (p.foldl max 0) r.op.csrCap
  let lo := min (p.headD 0) hi
  (lo, hi - lo)

/-- EXPAND of a run whose inputs have been read. -/
def Run.expand (r : Run) (len : Nat) : KWork × KEnd :=
  match r.expandEarly len with
  | some e => (.start, e)
  | none => expandRows r len 0 .start

/-! ## HIST, PSUM, NNZ (R322, R325) -/

/-- The writes that set every bucket to 0. -/
def Tens.zeroOuts (t : Tens) : List EOut :=
  (t.pieces t.cap).map fun p => ⟨0, t.fields.buf, p.2.1, List.replicate p.2.2 0, none, 0, 0⟩

/-- The counts of HIST by bucket; the keys counted and left out. -/
def histLoop (r : Run) (acc : Bool) (shift cap : Nat) : Nat → Nat → Tab Nat → KWork → Tab Nat × KWork × KEnd
  | 0, _, t, w => (t, w, (0, 0))
  | fuel + 1, i, t, w =>
    let a := r.op.keyTen 0
    let out := r.op.keyTen 2
    match keyCheck (r.elem a) i acc with
    | some e => (t, { w with pos := i }, e)
    | none =>
      let b := (r.elem a i).1 / 2 ^ shift
      let w := { w with pos := i + 1 }
      if cap ≤ b then histLoop r acc shift cap fuel (i + 1) t { w with n2 := w.n2 + 1 }
      else
        match Tab.get? t b with
        | some c => histLoop r acc shift cap fuel (i + 1) (Tab.set t b ((c + 1) % 2 ^ 32)) { w with n1 := w.n1 + 1 }
        | none =>
          match (if acc then r.elem out b else (0, none)) with
          | (_, some o) => (t, { w with pos := i }, (0x24, o))
          | (c, none) => histLoop r acc shift cap fuel (i + 1) (Tab.set t b ((c + 1) % 2 ^ 32)) { w with n1 := w.n1 + 1 }

/-- HIST. -/
def Run.hist (r : Run) (len : Nat) : KWork × KEnd :=
  let acc := bitsOf (r.op.reg 3) 3 3 == 1
  let out := r.op.keyTen 2
  let w : KWork := ⟨0, 0, 0, if acc then [] else out.zeroOuts⟩
  let (t, w, e) := histLoop r acc (bitsOf (r.op.reg 3) 12 8) out.cap len 0 [] w
  (w.put (t.map fun b => out.outWord b.1 b.2), e)

/-- PSUM. -/
def psumLoop (r : Run) (len : Nat) : Nat → Nat → Nat → KWork → KWork × KEnd
  | 0, _, _, w => (w, (0, 0))
  | fuel + 1, i, sum, w =>
    let a := r.op.keyTen 0
    let out := r.op.keyTen 2
    let w := { w with pos := i }
    match (if i < len then keyCheck (r.elem a) i false else none) with
    | some e => (w, e)
    | none =>
      if out.cap ≤ i then (w, (0x21, 0))
      else
        let w := { w with pos := min (i + 1) len }.put [out.outWord i sum]
        if len ≤ i then (w, (0, 0))
        else
          let t := (sum + (r.elem a i).1) % 2 ^ 32
          psumLoop r len fuel (i + 1) t { w with n1 := t }

/-- The bit of NNZ for element i: its encoding is anything but +0 or -0. -/
def Run.nonzero (r : Run) (i : Nat) : Bool :=
  let a := r.op.keyTen 0
  let (v, o) := r.elem a i
  let f := a.format
  o.isSome || (if f.isInt || !f.sgn then v != 0 else v % 2 ^ (f.w - 1) != 0)

/-- NNZ, word by word. -/
def nnzLoop (r : Run) (len : Nat) : Nat → Nat → KWork → KWork × KEnd
  | 0, _, w => ({ w with pos := len }, (0, 0))
  | fuel + 1, n, w =>
    let out := r.op.keyTen 2
    let w := { w with pos := 32 * n }
    if out.cap ≤ n then (w, (0x21, 0))
    else
      let bits := (List.range (min 32 (len - 32 * n))).map fun i => r.nonzero (32 * n + i)
      let w := { w with pos := 32 * n + bits.length }.put [out.outWord n (packBits bits)]
      nnzLoop r len fuel (n + 1) { w with n1 := w.n1 + (bits.filter id).length }

/-! ## Tables (R323, R324) -/

/-- The hash of a key. -/
def keyHash (log2 k : Nat) : Nat := k * 0x9E37_79B1 % 2 ^ 32 / 2 ^ (32 - log2)

/-- The empty key. -/
def emptyKey : Nat := 0xFFFF_FFFF

/-- The end of a probe sequence: a slot that holds the key; an empty slot; every slot taken by another key; a slot whose key comes
from a marked sector, which ends the operation (R319). -/
inductive Probe where
  | found (q : Nat)
  | empty (q : Nat)
  | full
  | marked (o : Origin)
  deriving DecidableEq, Repr, Inhabited

/-- The probe sequence of a key from slot q on. -/
def probeFrom (slot : Nat → KVal) (size k : Nat) : Nat → Nat → Probe
  | 0, _ => .full
  | fuel + 1, q =>
    match slot (q % size) with
    | (_, some o) => .marked o
    | (x, none) => if x = k then .found (q % size) else if x = emptyKey then .empty (q % size) else probeFrom slot size k fuel (q + 1)

/-- The probe sequence of a key. -/
def probeKey (slot : Nat → KVal) (log2 k : Nat) : Probe := probeFrom slot (2 ^ log2) k (2 ^ log2) (keyHash log2 k)

/-- The key of a slot of the table as it was read. -/
def Run.slotKey (r : Run) (q : Nat) : KVal := r.elem (r.op.keyTen 4) (2 * q)
/-- The payload of a slot. -/
def Run.slotData (r : Run) (q : Nat) : KVal := r.elem (r.op.keyTen 4) (2 * q + 1)

/-- A slot of the table as HBUILD finds it: a key that it has written itself; with CLEAR = 1 empty, but where a marked sector has not
taken the write that empties it. -/
def Run.buildSlot (r : Run) (clear : Bool) (t : Tab Nat) (q : Nat) : KVal :=
  match Tab.get? t q with
  | some x => (x, none)
  | none => if clear then (emptyKey, (r.slotKey q).2) else r.slotKey q

/-- HBUILD: `t` holds the keys that it has written, by slot. Its work is the slots cleared and the keys inserted (R314). -/
def hbuildLoop (r : Run) (clear : Bool) : Nat → Nat → Tab Nat → KWork → KWork × KEnd
  | 0, _, _, w => (w, (0, 0))
  | fuel + 1, p, t, w =>
    let o := r.op
    let a := o.keyTen 0
    match keyCheck (r.elem a) p false with
    | some e => (w, e)
    | none =>
      let k := (r.elem a p).1
      if k = emptyKey then (w, (0x22, 0))
      else
        match probeKey (r.buildSlot clear t) o.log2 k with
        | .full => (w, (0x21, 0))
        | .marked g => (w, (0x24, g))
        | .found _ => hbuildLoop r clear fuel (p + 1) t { w with n2 := w.n2 + 1 }
        | .empty q =>
          let th := o.keyTen 4
          let w := { w with pos := w.pos + 1, n1 := w.n1 + 1 }
          hbuildLoop r clear fuel (p + 1) (Tab.set t q k)
            (w.put [th.outWord (2 * q) k, th.outWord (2 * q + 1) (bitsOf (o.reg 5) 31 0 + p)])

/-- CLEAR of HBUILD. -/
def Eop.clears (o : Eop) : Bool := o.code == 0x15 && bitsOf (o.reg 3) 4 4 == 1

/-- The byte ranges that emptying the table writes: offset, address and count. -/
def Eop.clearPieces (o : Eop) : List (Nat × Nat × Nat) := (o.keyTen 4).pieces (2 * 2 ^ o.log2)

/-- Byte i of a run of empty slots that begins with word w of the table. -/
def emptyByte (i : Nat) : Byte := if i % 8 < 4 then 0xFF else 0

/-- The writes that empty the table (R323). -/
def Eop.clearWrites (o : Eop) : List EOut :=
  o.clearPieces.map fun p =>
    ⟨ceilDiv (p.1 + p.2.2) 8, (o.keyTen 4).fields.buf, p.2.1, (List.range p.2.2).map fun i => emptyByte (p.1 + i), none, 0, 0⟩

/-- HBUILD. -/
def Run.hbuild (r : Run) (len : Nat) : KWork × KEnd :=
  let clear := r.op.clears
  let w : KWork := if clear then ⟨0, 0, 2 ^ r.op.log2, r.op.clearWrites⟩ else .start
  hbuildLoop r clear len 0 [] w

/-- HPROBE. -/
def hprobeLoop (r : Run) : Nat → Nat → KWork → KWork × KEnd
  | 0, _, w => (w, (0, 0))
  | fuel + 1, p, w =>
    let o := r.op
    let a := o.keyTen 0
    let out := o.keyTen 2
    let w := { w with pos := p }
    match keyCheck (r.elem a) p false with
    | some e => (w, e)
    | none =>
      let k := (r.elem a p).1
      if k = emptyKey then (w, (0x22, 0))
      else if out.cap ≤ p then (w, (0x21, 0))
      else
        let v := { w with pos := p + 1 }
        match probeKey r.slotKey o.log2 k with
        | .marked g => (w, (0x24, g))
        | .found q => hprobeLoop r fuel (p + 1) { v.put [out.out p (r.slotData q)] with n1 := v.n1 + 1 }
        | _ => hprobeLoop r fuel (p + 1) { v.put [out.outWord p emptyKey] with n2 := v.n2 + 1 }

/-- A grid's extents less 1 (R315). -/
def Eop.grid (o : Eop) : Nat × Nat × Nat := (bitsOf (o.reg 4) 9 0, bitsOf (o.reg 4) 19 10, bitsOf (o.reg 4) 29 20)

/-- The neighbour of a voxel key at offset o, within the grid (R324). -/
def neighbour (g : Nat × Nat × Nat) (k o : Nat) : Option Nat :=
  let x : Int := (k % 1024 : Nat) + (o % 3 : Nat) - 1
  let y : Int := (k / 1024 % 1024 : Nat) + (o / 3 % 3 : Nat) - 1
  let z : Int := (k / 2 ^ 20 % 1024 : Nat) + (o / 9 : Nat) - 1
  if 0 ≤ x ∧ x ≤ g.1 ∧ 0 ≤ y ∧ y ≤ g.2.1 ∧ 0 ≤ z ∧ z ≤ g.2.2 then some (x.toNat + y.toNat * 1024 + z.toNat * 2 ^ 20) else none

/-- One offset of RULES from voxel j on: the pairs so far are `c`. -/
def rulesRow (r : Run) (len o : Nat) : Nat → Nat → Nat → KWork → KWork × Nat × Option KEnd
  | 0, _, c, w => (w, c, none)
  | fuel + 1, j, c, w =>
    let op := r.op
    let a := op.keyTen 0
    let size := bitsOf (op.reg 4) 47 32 + 1
    let g := op.grid
    let k := (r.elem a j).1
    let w := { w with pos := o * len + j }
    let out := decide (g.1 < k % 1024) || decide (g.2.1 < k / 1024 % 1024) || decide (g.2.2 < k / 2 ^ 20 % 1024)
    match (if o = 0 then keyCheck (r.elem a) j false else none) with
    | some e => (w, c, some e)
    | none =>
      if o = 0 ∧ 2 ^ 30 ≤ k then (w, c, some (0x22, 0))
      else if o = 0 ∧ out = true then (w, c, some (0x23, 0))
      else
        match (match neighbour g k o with | some m => probeKey r.slotKey op.log2 m | none => .full) with
        | .marked g => (w, c, some (0x24, g))
        | .found q =>
          let (p, mark) := r.slotData q
          if mark.isSome then (w, c, some (0x24, mark.getD 0))
          else if len ≤ p then (w, c, some (0x23, 0))
          else if c = size then (w, c, some (0x21, 0))
          else
            let w := { w with pos := o * len + j + 1, n1 := w.n1 + 1 }
            rulesRow r len o fuel (j + 1) (c + 1)
              (w.put [(op.keyTen 2).outWord (o * size + c) p, (op.keyTen 3).outWord (o * size + c) j])
        | _ => rulesRow r len o fuel (j + 1) c { w with pos := o * len + j + 1 }

/-- RULES: the counts of the offsets so far, in order. -/
def rulesLoop (r : Run) (len : Nat) : Nat → Nat → List Nat → KWork → List Nat × KWork × KEnd
  | 0, _, cs, w => (cs, w, (0, 0))
  | fuel + 1, o, cs, w =>
    match rulesRow r len o len 0 0 w with
    | (w, c, some e) => (cs ++ [c], w, e)
    | (w, c, none) => rulesLoop r len fuel (o + 1) (cs ++ [c]) w

/-- The work of RULES: all 27 counts, and the number of those that are 0, an early end included (R324). -/
def Run.rules (r : Run) (len : Nat) : List Nat × KWork × KEnd :=
  let (cs, w, e) := rulesLoop r len 27 0 [] .start
  let cs := (List.range 27).map fun i => cs.getD i 0
  (cs, { w with n2 := (cs.filter (· == 0)).length }, e)

/-! ## The whole operation (R326) -/

/-- The counts written to TN at the end; one beyond its capacity makes OK into FULL. -/
def Eop.counts (o : Eop) (l : List Nat) (w : KWork) (e : KEnd) : KWork × KEnd :=
  if o.keyField 5 = 0xFF then (w, e)
  else
    let t := o.keyTen 5
    let ix := (List.range l.length).zip l
    (w.put ((ix.filter fun x => decide (o.cidx + x.1 < t.cap)).map fun x => t.outWord (o.cidx + x.1) x.2),
     if e.1 = 0 ∧ (ix.any fun x => decide (t.cap ≤ o.cidx + x.1)) = true then (0x21, 0) else e)

/-- What the operation does, its inputs and lengths given. -/
def Run.keyWork (r : Run) (la lb : Nat) : Arith (KWork × KEnd) := do
  let o := r.op
  let one := fun (x : KWork × KEnd) => o.counts [x.1.n1] x.1 x.2
  match o.code with
  | 0x10 => return one (← r.merge la lb)
  | 0x11 => return one (← r.merge la lb)
  | 0x12 => return one (r.expand la)
  | 0x13 => return one (r.hist la)
  | 0x14 => return one (psumLoop r la (la + 1) 0 0 .start)
  | 0x15 => return one (r.hbuild la)
  | 0x16 => return one (hprobeLoop r la 0 .start)
  | 0x17 =>
    let (cs, w, e) := r.rules la
    return o.counts cs w e
  | _ => return one (nnzLoop r la (ceilDiv la 32) 0 .start)

/-- An operation that a length ends at once. -/
def Eop.keyFail (o : Eop) (e : KEnd) : KWork × KEnd :=
  if o.code = 0x17 then o.counts (List.replicate 27 0) { KWork.start with n2 := 27 } e else o.counts [0] .start e

/-! ## Stages -/

/-- The inputs that an operation reads with its lengths known: tensor, first element, number. -/
def Eop.keyInputs (o : Eop) (la lb : Nat) : List (Tens × Nat × Nat) :=
  let a := o.keyTen 0
  let vals := fun (t : Tens) n =>
    match o.valueOf (o.keyTen 2), o.valueOf t with
    | some _, some v => [(v, 0, min n v.cap)]
    | _, _ => []
  let table := [(o.keyTen 4, 0, 2 * 2 ^ o.log2)]
  match o.code with
  | 0x10 => [(a, 0, la), (o.keyTen 1, 0, lb)] ++ vals a la ++ vals (o.keyTen 1) lb
  | 0x11 => [(a, 0, la), (o.keyTen 1, 0, lb)] ++ vals a la ++ vals (o.keyTen 1) lb
  | 0x12 => if 65536 < la ∨ o.csr.1.cap < la + 1 then [] else [(o.csr.1, 0, la + 1)]
  | 0x13 => (a, 0, la) :: (if bitsOf (o.reg 3) 3 3 = 1 then [(o.keyTen 2, 0, (o.keyTen 2).cap)] else [])
  | 0x15 => (a, 0, la) :: (if o.clears then [] else table)
  | 0x16 => (a, 0, la) :: table
  | 0x17 => (a, 0, la) :: table
  | _ => [(a, 0, la)]

/-- Fetch several ranges. -/
def State.fetchAll (s : State) (k : Nat) (o : Eop) (l : List (Tens × Nat × Nat)) : State :=
  l.foldl (fun s x => s.fetchElems k 4 o x.1 x.2.1 x.2.2) s

/-- Before HBUILD empties its table: words that it covers in part are consumed (08 R200), and the sectors that it does not cover whole
are looked at, since a mark of theirs stays (04 R93; R323). -/
def State.peekTable (s : State) (k : Kern) (r : Run) : State :=
  let o := r.op
  if !o.clears then s
  else
    let s := s.consumePartial k.kid (r.taker k.kid 4) .ab (o.clearPieces.map fun p => (p.2.1, List.replicate p.2.2 0))
    (o.clearPieces.filter fun p => p.2.2 != 32).foldl (fun s p =>
      s.modRun k.kid 4 o.id.toNat fun y =>
        { y with mem := y.mem.store ((o.keyTen 4).key p.2.1) ((s.kern k.kid).ab.cbytes p.2.1 p.2.2) }) s

/-- The operation's work is settled: its outputs, counts and end stand in the run, its steps are still to come. -/
def Run.settle (r : Run) (x : KWork × KEnd) : Run :=
  { r with
    outs := x.1.outs
    cur := { r.cur with phase := 3, i := x.1.pos, j := 0, n := x.1.n1, m := x.1.n2, fin := some (x.2.1, x.2.2.toNat) } }

/-- Compute the work from what has been read; new origins are taken for the engine (R320). -/
def State.keyCompute (s : State) (k : Kern) (r : Run) (la lb : Nat) : State :=
  let (x, a) := (r.keyWork la lb).run (s.arith k)
  let info : OInfo := ⟨k.coordNat, k.core, 4, r.op.id.toNat, false, r.op.code, 0, 0⟩
  let s := a.made.foldl (fun t m => t.commitMade k.kid info m) s
  s.modRun k.kid 4 r.op.id.toNat fun y => y.settle x

/-- The next stage of a run whose reads have all been performed: lengths, inputs, for EXPAND the columns, the work. -/
def State.keyStage (s : State) (k : Kern) (r : Run) : State :=
  let id := r.op.id.toNat
  let phase := fun (s : State) n (ws : List Nat) => s.modRun k.kid 4 id fun y => { y with cur := { y.cur with phase := n, words := ws } }
  match r.cur.phase with
  | 0 =>
    match r.lengths with
    | .error e => s.modRun k.kid 4 id fun y => y.settle (r.op.keyFail e)
    | .ok (la, lb) => ((phase s 1 [la, lb]).peekTable k r).fetchAll k.kid r.op (r.op.keyInputs la lb)
  | 1 =>
    let la := r.cur.words.getD 0 0
    if r.op.code = 0x12 ∧ r.expandEarly la = none then
      let (lo, n) := r.expandSpan la
      let vals := if (r.op.valueOf (r.op.keyTen 2)).isSome then [(r.op.keyTen 0, lo, n)] else []
      (phase s 2 r.cur.words).fetchAll k.kid r.op ((r.op.csr.2, lo, n) :: vals)
    else s.keyCompute k r la (r.cur.words.getD 1 0)
  | 2 => s.keyCompute k r (r.cur.words.getD 0 0) (r.cur.words.getD 1 0)
  | _ => s

/-- The running operation of a port context. -/
def State.keyRun (s : State) (k : Nat) : Option Run := (s.kern k).key.runs.head?

/-- Stages follow one another while nothing is to be read from device memory. -/
def State.keyStages : Nat → Nat → State → State
  | 0, _, s => s
  | fuel + 1, k, s =>
    match s.keyRun k with
    | none => s
    | some r =>
      if r.cur.phase = 3 ∨ !r.mem.want.isEmpty ∨ s.outstanding k 4 r.op.id.toNat then s
      else State.keyStages fuel k (s.keyStage (s.kern k) r)

/-- Write one output: a mark merges with those the operation has put on its sector. -/
def State.emit (s : State) (k e : Nat) (r : Run) (o : EOut) : State :=
  let id := r.op.id.toNat
  let sec := o.addr / 32 + (if o.buf = .dm then 0 else 2 ^ 50)
  let marks := (((s.kern k).port e).runs.find? fun x => x.op.id == r.op.id).elim [] (·.cur.marks)
  let mark := o.mark.map fun g => (mergePoison [some g, Tab.get? marks sec]).getD g
  let s := match mark with
    | some g => s.modRun k e id fun x => { x with cur := { x.cur with marks := Tab.set x.cur.marks sec g } }
    | none => s
  if o.buf = .dm then
    s.modRun k e id fun x => { x with
      sent := if mark.isSome then [o] else x.sent
      mem := { x.mem with wq := x.mem.wq ++ [match mark with | some g => ⟨32 * (o.addr / 32), [], some g⟩ | none => ⟨o.addr, o.bytes, none⟩] } }
  else s.writeBufs k (r.taker k e) [⟨o.buf, o.addr, o.bytes, mark⟩]

/-- A mark of a device sector: a PCLEAN page refuses it, which ends the operation (R320). -/
def EOut.marks (o : EOut) : Bool := o.mark.isSome && o.buf == .dm

/-- Outputs up to the first mark of a device sector, and those after it. -/
def upToMark : List EOut → List EOut × List EOut
  | [] => ([], [])
  | o :: t => if o.marks then ([o], t) else let (a, b) := upToMark t; (o :: a, b)

/-- A mark is on its way to a line queue: what comes after it waits until its page has taken it. -/
def Run.marking (r : Run) : Bool := r.mem.wq.any fun w => w.mark.isSome

/-- A PCLEAN page has refused a mark, and the operation has not ended for it yet. -/
def Run.isRefused (r : Run) : Bool := r.mem.pclean.isSome && (match r.cur.fin with | some (0x25, _) => false | _ => true)

/-- The operation ends at the mark that a PCLEAN page has refused: what was written before it stands, and the counts are those before
it (R320, R326). -/
def Run.refuse (r : Run) : Run :=
  let g := r.mem.pclean.getD 0
  let o := r.sent.headD default
  let x := r.settle (r.op.counts [o.n1] ⟨o.n1, o.n2, o.at_, []⟩ (0x25, g))
  { x with sent := [], cur := { x.cur with j := o.at_, acc := r.cur.acc } }

/-- A step of the work: up to 256 elements further, with the outputs they write, as far as the next mark of a device sector; it takes
a cycle for 4 elements. -/
def State.keyAdvance (s : State) (k : Nat) : State :=
  match s.keyRun k with
  | none => s
  | some r =>
    if r.cur.phase ≠ 3 then s
    else if r.isRefused then s.modRun k 4 r.op.id.toNat Run.refuse
    else if r.marking then s
    else
      let j := min r.cur.i (r.cur.j + 256)
      let (now, stay) := upToMark (r.outs.filter fun o => decide (o.at_ ≤ j))
      let j := if stay.isEmpty then j else max r.cur.j (now.getLast?.getD default).at_
      let s := s.modRun k 4 r.op.id.toNat fun x =>
        { x with outs := x.outs.drop now.length, cur := { x.cur with j := j, acc := s.hub.time + ceilDiv (j - x.cur.j) 4 } }
      now.foldl (fun s o => s.emit k 4 r o) s

/-! ## Service (R314) and completion (R326-R328) -/

/-- The port context has something to do in a step: an operation to start, a stage whose reads are there, or work. -/
def State.keyReady (s : State) (k : Kern) : Bool :=
  s.enginesRun k &&
    match k.key.runs.head? with
    | none => (k.nextOp 4).isSome
    | some r => if r.cur.phase = 3 then r.isRefused || (!r.marking && (decide (r.cur.j < r.cur.i) || !r.outs.isEmpty))
        else r.mem.want.isEmpty && !s.outstanding k.kid 4 r.op.id.toNat

/-- A kernel's place in the round: its core, then its launch. -/
def Kern.keyPlace (k : Kern) : Nat := k.core * 2 ^ 40 + k.kid

/-- The least place in a list above one. -/
def leastAbove (lo : Nat) (l : List Nat) : Option Nat :=
  l.foldl (fun (b : Option Nat) x => if x ≤ lo then b else match b with | some y => some (min x y) | none => some x) none

/-- The engine of a cluster is within a step (R314). -/
def State.keyBusy (s : State) (cl : Nat) : Bool :=
  s.kerns.any fun k => k.core / 8 == cl && k.key.runs.any fun r => decide (s.hub.time < r.cur.acc)

/-- The port context of a cluster that is served next. -/
def State.keyNext (s : State) (cl : Nat) : Option Kern :=
  let c := s.kerns.filter fun k => k.core / 8 == cl && !s.keyBusy cl && s.keyReady k
  let places := c.map Kern.keyPlace
  let pick := match leastAbove (Tab.get 0 s.keyPos cl) places with
    | some p => some p
    | none => leastAbove 0 (places.map (· + 1)) |>.map (· - 1)
  match pick with
  | some p => c.find? fun k => k.keyPlace == p
  | none => none

/-- KEY_STEP (R314): a step of the port context that is served next. -/
def execKeyStep (cl : Nat) (s : State) : Out :=
  match s.keyNext cl with
  | none => .next s
  | some k =>
    let s := { s with keyPos := Tab.set s.keyPos cl k.keyPlace }
    let s := match k.nextOp 4 with
      | some o =>
        let s := s.modKern k.kid fun y => y.modPort 4 fun p => p.startRun o (.start o)
        ([1, 2].filterMap fun n =>
          match (if n = 2 ∧ o.twoInputs = false then none else o.lengthTen n) with
          | some t => if bitsOf (o.reg n) 31 0 < t.cap then some (t, bitsOf (o.reg n) 31 0) else none
          | none => none).foldl (fun s x => s.fetchElems k.kid 4 o x.1 x.2 1) s
      | none => s
    .next ((State.keyStages 4 k.kid s).keyAdvance k.kid)

/-- The records of a completed operation (R328). -/
def Run.keyRecords (r : Run) (st : Nat) (o : Origin) (recs : Tab Word) : Tab Word :=
  let id := r.op.id
  let t := Tab.put 0 recs 2 (record id st)
  let t := Tab.put 0 t 3 (record id r.cur.n)
  let t := Tab.put 0 t 4 (record id r.cur.m)
  if st = 0 then t
  else Tab.put 0 (Tab.put 0 t 5 (record id (st + o.toNat * 2 ^ 16))) 7 (record id r.cur.i)

/-- KEY_OP_COMPLETE (R326). -/
def execKeyOpComplete (k : Nat) (s : State) : Out :=
  match s.kern? k, s.keyRun k with
  | some x, some r =>
    if !s.enginesRun x || r.cur.phase != 3 || r.isRefused || decide (r.cur.j < r.cur.i) || !r.outs.isEmpty || !r.mem.wq.isEmpty
        || s.outstanding k 4 r.op.id.toNat || decide (s.hub.time < r.cur.acc) then .next s
    else
      let (st, o) := match r.cur.fin with
        | some (st, g) => (st, BitVec.ofNat 15 g)
        | none => (0, 0)
      .next (s.modKern k fun y => (y.modPort 4 fun p =>
        let p := { p with recs := r.keyRecords st o p.recs }
        if st = 0x25 then p.reportPoison r.op.id o else p).completeOp 4 r.op.id)
  | _, _ => .next s

end Sys2Proof.Machine
end

