-- ==== Sys2Proof/Machine/CircuitObj.lean ====
section
/-! DEFINITION. The circuit engine's objects and arithmetic (11 R281-R296; 04 R79): headers, section descriptors, node
words, values by lane. -/

namespace Sys2Proof.Machine

/-! ## The object (R284-R286) -/

/-- The fields of a circuit object's header; `ok` says that no check of its own fields fails. -/
structure CHead where
  banks : Nat
  pfmt : Bool
  dmode : Nat
  nsec : Nat
  nspill : Nat
  nout : Nat
  nleaf : Nat
  npar : Nat
  secoff : Nat
  paroff : Nat
  ok : Bool
  deriving DecidableEq, Repr, Inhabited

/-- A header read field by field (R284). -/
def headOf (h : BitVec 512) : CHead :=
  let w := entWord h
  let dmode := bitsOf (w 0) 17 16
  let nspill := bitsOf (w 1) 63 48
  let nout := bitsOf (w 1) 31 16
  let nleaf := bitsOf (w 1) 15 0
  let npar := bitsOf (w 2) 45 32
  let secoff := bitsOf (w 2) 31 0
  let paroff := bitsOf (w 3) 31 0
  { banks := bitsOf (w 0) 47 32
    pfmt := bitsOf (w 0) 18 18 == 1
    dmode, nsec := bitsOf (w 0) 15 0 + 1, nspill, nout, nleaf, npar, secoff, paroff
    ok := bitsOf (w 0) 63 48 == 1 && bitsOf (w 0) 31 19 == 0 && dmode != 3 && bitsOf (w 1) 47 32 == 0
      && bitsOf (w 2) 63 46 == 0 && bitsOf (w 3) 63 32 == 0 && ((List.range 4).all fun n => w (4 + n) == 0)
      && decide (nspill ≤ 8192) && nout != 0 && nleaf != 0 && decide (npar ≤ 8192) && secoff % 64 == 0 && paroff % 64 == 0 }

/-- Bytes of a parameter. -/
def CHead.psz (h : CHead) : Nat := if h.pfmt then 8 else 4

/-- The format of parameters. -/
def CHead.pform (h : CHead) : Fmt := if h.pfmt then .f64 else .f32

/-- The bytes from `lo` to below `hi` lie in the union of ranges; `fuel` is their number. -/
def rangesCover (rs : List (Int × Int)) : Nat → Int → Int → Bool
  | 0, lo, hi => decide (hi ≤ lo)
  | fuel + 1, lo, hi =>
    decide (hi ≤ lo) || match rs.find? fun r => decide (r.1 ≤ lo) && decide (lo ≤ r.2) with
      | some r => rangesCover rs fuel (r.2 + 1) hi
      | none => false

/-- n bytes from an address lie in the footprint of a tensor, its scales included (08 R207). -/
def Tens.footprintHas (t : Tens) (addr n : Nat) : Bool :=
  let rs := t.fields.ranges t.format
  rangesCover rs rs.length addr (addr + n : Nat)

/-- n bytes from an offset of the object lie in its tensor's footprint (R286). -/
def Tens.objHas (t : Tens) (off n : Nat) : Bool := t.footprintHas (t.fields.base + off) n

/-- The header's parts lie in the footprint. -/
def CHead.fits (h : CHead) (t : Tens) : Bool :=
  t.objHas h.secoff (32 * h.nsec) && t.objHas h.paroff (2 * h.npar * h.psz)

/-- The spill area does not serve the object (R302). -/
def CHead.spillBad (h : CHead) (sp : Option Tens) : Bool :=
  decide (0 < h.nspill) && match sp with | none => true | some t => !t.footprintHas t.fields.base (64 * h.nspill)

/-- Bytes of the lists of a section. -/
def Frame.listBytes (f : Frame) : Nat := 4 * (f.nlb + f.nob + f.nfl + f.nsp)

/-- A section descriptor of 32 bytes (R285, R286): the frame record it makes, its offsets; none where a check fails. -/
def descOf (t : Tens) (sec d : Nat) : Option (Frame × Nat × Nat) :=
  let w := fun n => d / 2 ^ (64 * n) % 2 ^ 64
  let f : Frame := ⟨sec, bitsOf (w 1) 15 0, bitsOf (w 1) 31 16, bitsOf (w 1) 47 32, bitsOf (w 1) 63 48, bitsOf (w 2) 15 0,
    bitsOf (w 2) 31 16⟩
  let node := bitsOf (w 0) 31 0
  let list := bitsOf (w 0) 63 32
  if node % 8 = 0 ∧ list % 4 = 0 ∧ bitsOf (w 2) 63 32 = 0 ∧ w 3 = 0 ∧ 1 ≤ f.nnode ∧ f.nnode ≤ 8192 ∧ 1 ≤ f.nstep
      ∧ f.nstep ≤ 8192 ∧ f.nfl ≤ 64 ∧ f.nsp ≤ 64 ∧ 8 * f.nnode + f.listBytes ≤ 65536
      ∧ t.objHas node (8 * f.nnode) = true ∧ t.objHas list f.listBytes = true
  then some (f, node, list) else none

/-- A list of bytes as little-endian numbers of n bytes. -/
def numbers (n : Nat) : Nat → List Byte → List Nat
  | 0, _ => []
  | k + 1, l => leNat (l.take n) :: numbers n k (l.drop n)

/-- A binding or list word: its slot, its index. -/
def bindOf (w : Nat) : Nat × Nat := (bitsOf w 30 16, bitsOf w 15 0)

/-- A binding breaks R286. -/
def bindBad (h : CHead) (lim w : Nat) : Bool :=
  bitsOf w 31 31 != 0 || bitsOf h.banks (bitsOf w 30 27) (bitsOf w 30 27) == 0 || decide (lim ≤ bitsOf w 15 0)

/-- A fill or spill entry breaks R286. -/
def entryBad (h : CHead) (w : Nat) : Bool := bitsOf w 31 13 != 0 || decide (h.nspill ≤ w)

/-- The four lists of a section. -/
structure SLists where
  leaves : List (Nat × Nat)
  outs : List (Nat × Nat)
  fills : List Nat
  spills : List Nat
  deriving DecidableEq, Repr, Inhabited

/-- The lists of a frame's section from its list words. -/
def Frame.lists (f : Frame) (ws : List Nat) : SLists :=
  ⟨(ws.take f.nlb).map bindOf, ((ws.drop f.nlb).take f.nob).map bindOf, (ws.drop (f.nlb + f.nob)).take f.nfl,
   (ws.drop (f.nlb + f.nob + f.nfl)).take f.nsp⟩

/-- The section's words and lists pass R286. -/
def Frame.sound (f : Frame) (h : CHead) (nodes ws : List Nat) : Bool :=
  let rest := ws.drop (f.nlb + f.nob)
  (nodes.filter fun w => bitsOf w 58 58 == 1).length == f.nstep
    && (match nodes.getLast? with | some w => bitsOf w 58 58 == 1 | none => false)
    && !(ws.take f.nlb).any (bindBad h h.nleaf) && !((ws.drop f.nlb).take f.nob).any (bindBad h h.nout)
    && !rest.any (entryBad h)

/-! ## Node words (R287, R288, R291) -/

/-- A node word's fields. -/
structure Node where
  op : Nat
  eos : Bool
  out : Nat
  in1 : Nat
  in2 : Nat
  idx : Nat
  word : Nat
  deriving DecidableEq, Repr, Inhabited

/-- A node word read (R287). -/
def nodeOf (w : Nat) : Node :=
  ⟨bitsOf w 63 59, bitsOf w 58 58 == 1, bitsOf w 57 43, bitsOf w 42 28, bitsOf w 27 13, bitsOf w 12 0, w⟩

/-- The node writes out; it reads in1, in2, IDX (R288). -/
def Node.writes (n : Node) : Bool := n.op != 0 && n.op != 11
def Node.reads1 (n : Node) : Bool := n.op != 0 && n.op != 12
def Node.reads2 (n : Node) : Bool := decide (2 ≤ n.op) && decide (n.op ≤ 10) && n.op != 7
def Node.weighted (n : Node) : Bool := n.op == 7 || n.op == 8 || n.op == 9
def Node.usesIdx (n : Node) : Bool := n.weighted || n.op == 11 || n.op == 12

/-- The slots a node reads. -/
def Node.slots (n : Node) : List Nat := (if n.reads1 then [n.in1] else []) ++ if n.reads2 then [n.in2] else []

/-- An operand field breaks FIELD: unused and nonzero, or used with a bank outside BANKS. -/
def fieldBad (banks : Nat) (used : Bool) (slot : Nat) : Bool :=
  if used then bitsOf banks (slot / 2048) (slot / 2048) == 0 else slot != 0

/-- What the checks of a step know: header, lists, slots whose writes have not landed. -/
structure StepEnv where
  h : CHead
  lists : SLists
  flying : List Nat

/-- The first failure of a node at position p of its step (R291); `rd` and `wr` are the banks that the nodes before it read
and write. -/
def Node.failure (n : Node) (v : StepEnv) (p : Nat) (rd wr : List Nat) : Option Nat :=
  let rd := rd ++ n.slots.map (· / 2048)
  if 8 ≤ p then some 8
  else if 13 ≤ n.op then some 4
  else if fieldBad v.h.banks n.writes n.out || fieldBad v.h.banks n.reads1 n.in1 || fieldBad v.h.banks n.reads2 n.in2
      || (!n.usesIdx && n.idx != 0) then some 5
  else if n.weighted ∧ v.h.npar ≤ n.idx then some 6
  else if (n.op = 11 ∧ !v.lists.spills.contains n.idx) ∨ (n.op = 12 ∧ !v.lists.fills.contains n.idx) then some 7
  else if n.slots.any v.flying.contains then some 1
  else if rd.any fun b => decide (2 < (rd.filter (· == b)).length) then some 2
  else if n.writes ∧ wr.contains (n.out / 2048) then some 3
  else none

/-- The first failure of a step: reason and position. -/
def stepFailure (v : StepEnv) : Nat → List Nat → List Nat → List Node → Option (Nat × Nat)
  | _, _, _, [] => none
  | p, rd, wr, n :: t =>
    match n.failure v p rd wr with
    | some r => some (r, p)
    | none => stepFailure v (p + 1) (rd ++ n.slots.map (· / 2048)) (if n.writes then wr ++ [n.out / 2048] else wr) t

/-- The words of the step that begins a list of node words. -/
def stepNodes : List Nat → List Node
  | [] => []
  | w :: t => let n := nodeOf w
    if n.eos then [n] else n :: stepNodes t

/-! ## Values (R79, R292-R294) -/

/-- Lanes in a slot: F32 16, F64 and SX 8. -/
def slotLanes (mode : Nat) : Nat := if mode = 0 then 16 else 8
/-- Bits of a lane. -/
def laneBits (mode : Nat) : Nat := if mode = 0 then 32 else 64
/-- The format of F32 and F64 lanes. -/
def modeFmt (mode : Nat) : Fmt := if mode = 1 then .f64 else .f32

/-- The lanes of a slot's 512 bits. -/
def unpackSlot (mode : Nat) (v : BitVec 512) : List Nat :=
  (List.range (slotLanes mode)).map fun b => v.toNat / 2 ^ (laneBits mode * b) % 2 ^ laneBits mode

/-- A slot's 512 bits from its lanes. -/
def packSlot (mode : Nat) (l : List Nat) : BitVec 512 :=
  BitVec.ofNat 512 (l.foldr (fun x acc => x % 2 ^ laneBits mode + 2 ^ laneBits mode * acc) 0)

/-- A poison lane. -/
def poisonLane (mode : Nat) (o : Origin) : Nat := poisonBits (modeFmt mode) o

/-- The value of an SX word (R79). -/
def decodeSX (x : Nat) : FVal :=
  match decodeF .f32 (x % 2 ^ 32) with
  | .fin v => .fin { v with e := v.e + 64 * signExt 32 (x / 2 ^ 32) }
  | v => v

/-- A lane's value. -/
def decodeLane (mode x : Nat) : FVal := if mode = 2 then decodeSX x else decodeF (modeFmt mode) x

/-- A finite value as an SX word (R79), and whether it underflows. -/
def finSX (x : Ex) : Nat × Bool :=
  let sign := if x.neg then 2 ^ 31 else 0
  if x.isZero then (sign, false)
  else
    let top : Int := x.e + (bitLen x.m : Int) - 1
    let u := top - 23
    let (n, _) := roundUnits 0 x.neg 0 x.m x.e x.st u
    let q : Int := u + (bitLen n : Int) - 1
    let s : Int := (q + 32) / 64
    if s < -(2 ^ 31) then (sign, true)
    else if 2 ^ 31 - 1 < s then (sign + 0x7F80_0000, false)
    else
      let big := bitLen n == 25
      let frac := if big then n / 2 else n
      let e : Int := q - 64 * s
      (sign + (e + 127).toNat * 2 ^ 23 + frac % 2 ^ 23 + (s % 2 ^ 32).toNat * 2 ^ 32, false)

/-- A result as an SX word; poison cases as in the other modes (R294). -/
def toSX (v : FVal) : Arith (Nat × Bool) := do
  match v with
  | .poison o => return (poisonBits .f32 o, false)
  | .foreign => return (poisonBits .f32 (← newOrigin kFOREIGN), false)
  | .inf neg => return ((if neg then 2 ^ 31 else 0) + 0x7F80_0000, false)
  | .fin x => return finSX x

/-- A value that is finite, nonzero and normal in its format. -/
def normalIn (f : Fmt) (v : FVal) : Bool :=
  match v with
  | .fin x => !x.isZero && decide (1 - f.bias ≤ x.e + (bitLen x.m : Int) - 1)
  | _ => false

/-- The exact result of a node (R288) other than COPY, SPILL and FILL: `w` is the parameter. -/
def nodeExact (op : Nat) (a b w : FVal) : Arith FVal :=
  match op with
  | 2 => fpAdd 0 a b
  | 3 => fpAdd 0 a b.negate
  | 4 => fpMul a b
  | 5 => fpMinMax true a b
  | 6 => fpMinMax false a b
  | 7 => fpMul w a
  | 8 => fpFma 0 w a b
  | 9 => fpFma 0 w.negate a b
  | _ => fpDiv a b

/-- What a node delivers in a lane and whether the lane vanishes (R293, R294, R296). -/
def nodeLane (mode : Nat) (sat : Bool) (pf : Fmt) (n : Node) (x y : Nat) (w : FVal) : Arith (Nat × Bool) := do
  let a := decodeLane mode x
  let b := decodeLane mode y
  if n.op = 1 then
    match decide (mode < 2), a with
    | true, .foreign => return (poisonLane mode (← newOrigin kFOREIGN), false)
    | _, _ => return (x, false)
  let r ← nodeExact n.op a b w
  let may := n.op != 5 && n.op != 6
  if mode = 2 then
    let (v, uf) ← toSX r
    return (v, may && uf)
  else
    let f := modeFmt mode
    let v ← roundTo f r 0 sat
    let small := match decodeF f (v.toBits f), r with
      | .fin d, .fin e => !e.isZero && !normalIn f (.fin d)
      | _, _ => false
    return (v.toBits f, may && small && normalIn f a && (!n.reads2 || normalIn f b) && (!n.weighted || normalIn pf w))

/-- Arithmetic of a lane beyond the batch: it takes no origin, its poison carries 0 (R295). -/
def deadRun {α : Type} (x : Arith α) : α :=
  (x.run ⟨0, 0, [], false, [⟨kNANGEN, 0, 0, false⟩, ⟨kFOREIGN, 0, 0, false⟩, ⟨kOVERFLOW, 0, 0, false⟩], 0⟩).1

/-- Arithmetic lane by lane: the live ones as one instance. -/
def laneByLane {α : Type} (live : Nat → Bool) (f : Nat → Arith α) : List Nat → Arith (List α)
  | [] => pure []
  | b :: t => do
    let v ← (if live b then f b else pure (deadRun (f b)))
    let vs ← laneByLane live f t
    return v :: vs

/-- Leaf (R297): a leaf's bits of format `f`, or a marked sector's origin, as a lane. -/
def leafLane (mode : Nat) (sat : Bool) (f : Fmt) (bits : Nat) (mark : Option Origin) : Nat :=
  let v : FVal := match mark with | some o => .poison o | none => decodeF f bits
  match v with
  | .foreign => if mode = 1 then 0x7FF8_0000_0000_0000 else 0x7FC0_0000
  | v => if mode = 2 then (deadRun (toSX v)).1 else (deadRun (roundTo (modeFmt mode) v 0 sat)).toBits (modeFmt mode)

/-- Out (R297): the bits written, and whether they are poison. -/
def outLane (mode : Nat) (sat : Bool) (f : Fmt) (x : Nat) : Arith (Nat × Bool) := do
  if f.isFloat then
    let v ← roundTo f (decodeLane mode x) 0 sat
    return (v.toBits f, v.isPoison)
  else return (x, match decodeF .f32 (x % 2 ^ 32) with | .poison _ => true | _ => false)

end Sys2Proof.Machine
end

