-- ==== Sys2Proof/Machine/Circuit.lean ====
section
/-! DEFINITION. The circuit engine's events (11 R283, R297-R311): starting operations, fetching sections, steps, batch
groups, completion. A running EVAL or CLOAD keeps its cursor in `Run.cur`: `phase`, the group `i`, the section `j`, the step
`n`, the word `m` of its first node, and `acc`, the TIME before which it does not go on. -/

namespace Sys2Proof.Machine

/-! ## Shared access -/

/-- The state with the circuit engine's own state changed. -/
def State.modCirc (s : State) (k : Nat) (f : Circ → Circ) : State := s.modKern k fun y => { y with circ := f y.circ }

/-- A cached range forgotten. -/
def EMem.forget (m : EMem) (key n : Nat) : EMem :=
  { m with cache := m.cache.filter fun e => decide (e.1 < key) || decide (key + n ≤ e.1) }

/-- Ask anew for n bytes from an address, to be kept from `key` on. -/
def EMem.ask (m : EMem) (key va n : Nat) : EMem := { m.forget key n with want := m.want ++ wantsOf key va n }

/-- The running CLOAD or EVAL. -/
def Kern.mainRun (k : Kern) : Option Run := k.circP.runs.find? fun r => r.op.code == 0x20 || r.op.code == 0x21

/-- The state with a circuit run's cursor changed. -/
def State.modCursor (s : State) (k : Nat) (r : Run) (f : Cursor → Cursor) : State :=
  s.modRun k 5 r.op.id.toNat fun x => { x with cur := f x.cur }

/-- An operation ends: status, reason, fault location; what it still wanted to read is dropped. -/
def State.circEnd (s : State) (k : Nat) (r : Run) (st reason loc : Nat) : State :=
  let s := if r.op.code = 0x20 ∨ r.op.code = 0x21 then s.modCirc k fun c => { c with fetch := none } else s
  s.modRun k 5 r.op.id.toNat fun x =>
    { x with mem := { x.mem with want := [] }, cur := { x.cur with fin := some (st + 256 * reason, loc) } }

/-- The mode of an EVAL (R297). -/
def Eop.mode (o : Eop) (h : CHead) : Nat := let v := bitsOf (o.reg 0) 33 32
  if v = 3 then h.dmode else v
/-- OVF is SAT. -/
def Eop.sat (o : Eop) : Bool := bitsOf (o.reg 0) 34 34 == 1
/-- LTENS, OTENS, RTENS, VTENS of CE0. -/
def Eop.evalTen (o : Eop) (n : Nat) : Tens := o.ten (bitsOf (o.reg 0) (8 * n + 7) (8 * n))
/-- RTENS is given. -/
def Eop.hasRec (o : Eop) : Bool := bitsOf (o.reg 0) 23 16 != 0xFF
/-- BFIRST. -/
def Eop.bfirst (o : Eop) : Nat := bitsOf (o.reg 1) 31 0
/-- BCOUNT. -/
def Eop.bcount (o : Eop) : Nat := bitsOf (o.reg 1) 63 32
/-- The number of batch groups. -/
def Eop.groups (o : Eop) (h : CHead) : Nat := ceilDiv o.bcount (slotLanes (o.mode h))
/-- Lane b of group g is live. -/
def Eop.live (o : Eop) (h : CHead) (g b : Nat) : Bool := decide (g * slotLanes (o.mode h) + b < o.bcount)
/-- The batch row of lane b of group g. -/
def Eop.row (o : Eop) (h : CHead) (g b : Nat) : Nat := o.bfirst + g * slotLanes (o.mode h) + b

/-- The byte address of element (i0, i1). -/
def Tens.elemAddr2 (t : Tens) (i0 i1 : Nat) : Nat := t.bitAddr (t.offset i0 i1 0 0) / 8

/-- The engine is not stopped. -/
def State.circLives (s : State) (k : Kern) : Bool :=
  (match s.dom? k.dom with | some d => d.started && !d.hard | none => false) && !k.ctl.dead

/-- The engine goes on: while a full pre-emption waits, a running CLOAD completes and an EVAL goes on to its next save point, the
end of a section or of a group (R311). -/
def State.circRuns (s : State) (k : Kern) : Bool :=
  s.circLives k
    && (!s.quiesced k || match k.mainRun with
        | some r => r.op.code == 0x20 || r.cur.fin.isSome || !(r.cur.phase == 0 || r.cur.phase == 5)
        | none => !k.circP.runs.isEmpty)

/-- A running operation is other than a CLOAD or an EVAL: it completes before a save (R311). -/
def Run.isShort (r : Run) : Bool := r.op.code != 0x20 && r.op.code != 0x21

/-- The engine has work that a save waits for. -/
def State.circBusy (s : State) (k : Kern) : Bool := s.circRuns k || (s.circLives k && k.circP.runs.any Run.isShort)

/-! ## Frames and section fetches (R285, R286, R298) -/

/-- The NS address of a frame. -/
def frameAddr (right : Bool) : Nat := if right then 0x10000 else 0

/-- The record of a frame. -/
def Circ.frame (c : Circ) (right : Bool) : Option Frame := if right then c.frame1 else c.frame0

/-- The record of a frame set. -/
def Circ.setFrame (c : Circ) (right : Bool) (f : Option Frame) : Circ :=
  if right then { c with frame1 := f } else { c with frame0 := f }

/-- The bytes of a section in its frame: its words and lists. -/
def Frame.bytes (f : Frame) : Nat := 8 * f.nnode + f.listBytes

/-- No sector of a frame that holds bytes of its section is marked, and none of its words is uncorrectable. -/
def Kern.frameIntact (k : Kern) (right : Bool) (f : Frame) : Bool :=
  let lo := frameAddr right
  let hi := lo + f.bytes
  !(k.ns.marks.any fun e => decide (lo < 32 * e.1 + 32) && decide (32 * e.1 < hi))
    && !(k.ns.ue.any fun w => decide (lo < 8 * w + 8) && decide (8 * w < hi))

/-- A frame in which a section stands. -/
def Kern.holds (k : Kern) (sec : Nat) : Option Bool :=
  [false, true].find? fun right => match k.circ.frame right with | some f => f.sec == sec && k.frameIntact right f | none => false

/-- The object's header. -/
def Kern.chead (k : Kern) : CHead := headOf k.circ.header

/-- The object tensor. -/
def Kern.cobj (k : Kern) : Tens := k.circ.obj.getD default

/-- A section fetch begins with the descriptor. -/
def State.startFetch (s : State) (k : Nat) (r : Run) (sec : Nat) (right : Bool) : State :=
  let x := s.kern k
  let a := x.cobj.fields.base + x.chead.secoff + 32 * sec
  let s := s.modCirc k fun c => { c.setFrame right none with fetch := some ⟨sec, right, none, false⟩ }
  s.modRun k 5 r.op.id.toNat fun y => { y with mem := y.mem.ask a a 32 }

/-- Bytes that came from a marked sector. -/
def anyMark (l : List CByte) : Bool := l.any fun b => b.mark.isSome

/-- A fetch goes on as far as what has been read allows: descriptor, then the words and lists into the frame, whose last sector is
filled up with zeros (log 106). -/
def State.fetchStage (s : State) (k : Nat) (r : Run) (f : Fetch) : State :=
  let x := s.kern k
  let t := x.cobj
  let bad := s.modCirc k fun c => { c with fetch := some { f with bad := true } }
  match f.desc with
  | none =>
    let a := t.fields.base + x.chead.secoff + 32 * f.sec
    match r.mem.bytes? a 32 with
    | none => s
    | some l =>
      match (if anyMark l then none else descOf t f.sec (leNat (l.map (·.b)))) with
      | none => bad
      | some (fr, node, list) =>
        let s := s.modCirc k fun c => { c with fetch := some { f with desc := some (fr, node, list) } }
        s.modRun k 5 r.op.id.toNat fun y =>
          let m := y.mem.ask (t.fields.base + node) (t.fields.base + node) (8 * fr.nnode)
          { y with mem := { m.forget (t.fields.base + list) fr.listBytes with
            want := m.want ++ (wantsOf (t.fields.base + list) (t.fields.base + list) fr.listBytes) } }
  | some (fr, node, list) =>
    match r.mem.bytes? (t.fields.base + node) (8 * fr.nnode), r.mem.bytes? (t.fields.base + list) fr.listBytes with
    | some ns, some ls =>
      let nb := ns.map (·.b)
      let lb := ls.map (·.b)
      let words := numbers 4 (fr.listBytes / 4) lb
      if anyMark ns || anyMark ls || !fr.sound x.chead (numbers 8 fr.nnode nb) words then bad
      else
        let pad := List.replicate ((32 - fr.bytes % 32) % 32) 0
        let s := s.writeBufs k (r.taker k 5) [⟨.ns, frameAddr f.right, nb ++ lb ++ pad, none⟩]
        s.modCirc k fun c => { c.setFrame f.right (some fr) with fetch := none }
    | _, _ => s

/-! ## CLOAD (R304) -/

/-- A parameter as it is read: that of a marked sector is poison (R286; 04 R93). -/
def paramBytes (h : CHead) (l : List CByte) : List Byte :=
  match mergePoison (l.map (·.mark)) with
  | some o => leBytes h.psz (poisonBits h.pform o)
  | none => l.map (·.b)

/-- The entries of a parameter side. -/
def sideBytes (h : CHead) : Nat → List CByte → List Byte
  | 0, _ => []
  | n + 1, l => paramBytes h (l.take h.psz) ++ sideBytes h n (l.drop h.psz)

/-- Zeroed spill entries from an address, line by line. -/
def zeroWrites (va n : Nat) : List EWrite :=
  (cutPieces 64 (n / 64 + 2) 0 va n).map fun p => ⟨p.2.1, List.replicate p.2.2 0, none⟩

/-- CLOAD goes on as far as what has been read allows. -/
def State.cloadStage (s : State) (k : Nat) (r : Run) : State :=
  let x := s.kern k
  let o := r.op
  let obj := o.ten (bitsOf (o.reg 2) 7 0)
  let base := obj.fields.base
  let sp := if bitsOf (o.reg 2) 15 8 = 0xFF then none else some (o.ten (bitsOf (o.reg 2) 15 8))
  match r.cur.phase with
  | 0 =>
    match r.mem.bytes? base 64 with
    | none => s
    | some l =>
      let hd := BitVec.ofNat 512 (leNat (l.map (·.b)))
      let h := headOf hd
      if anyMark l || !h.ok || !h.fits obj then s.circEnd k r 0x11 0 0
      else if h.spillBad sp then s.circEnd k r 0x12 0 0
      else
        let s := s.modCirc k fun c => { c with header := hd, obj := some obj, frame0 := none, frame1 := none }
        s.modRun k 5 o.id.toNat fun y =>
          { y with mem := y.mem.ask (base + h.paroff) (base + h.paroff) (2 * h.npar * h.psz), cur := { y.cur with phase := 1 } }
  | 1 =>
    let h := x.chead
    match r.mem.bytes? (base + h.paroff) (2 * h.npar * h.psz) with
    | none => s
    | some l =>
      let s := s.writeBufs k (r.taker k 5)
        [⟨.ns, 0x20000, sideBytes h h.npar l, none⟩, ⟨.ns, 0x30000, sideBytes h h.npar (l.drop (h.npar * h.psz)), none⟩]
      (s.modCursor k r fun c => { c with phase := 2 }).startFetch k r 0 false
  | 2 =>
    match x.circ.fetch with
    | some f => if f.bad then s.circEnd k r 0x11 0 0 else s
    | none =>
      let h := x.chead
      let s := match sp with
        | some t => s.modRun k 5 o.id.toNat fun y => { y with mem := { y.mem with wq := zeroWrites t.fields.base (64 * h.nspill) } }
        | none => s
      s.circEnd k r 0 0 0
  | _ => s

/-! ## Slots and parameters (R290, R292) -/

/-- A slot's lanes: those of a marked sector are poison. -/
def State.readSlot (s : State) (k : Nat) (r : Run) (mode v : Nat) : State × List Nat :=
  let (s, l) := s.readBuf k (r.taker k 5) .xs (64 * v) 64
  let lanes := unpackSlot mode (BitVec.ofNat 512 (leNat (l.map (·.b))))
  (s, (List.range (slotLanes mode)).map fun b =>
    match (l.getD (b * (laneBits mode / 8)) ⟨0, none⟩).mark with
    | some o => poisonLane mode o
    | none => lanes.getD b 0)

/-- A slot written. -/
def State.writeSlot (s : State) (k : Nat) (r : Run) (v : Nat) (x : BitVec 512) : State :=
  s.writeBufs k (r.taker k 5) [⟨.xs, 64 * v, leBytes 64 x.toNat, none⟩]

/-- Results of steps up to `upto` land in step order (R289). -/
def State.landSteps (s : State) (k : Nat) (r : Run) (upto : Nat) : State :=
  let due := (s.kern k).circ.landing.filter fun e => decide (e.1 ≤ upto)
  let s := due.foldl (fun s e => s.writeSlot k r e.2.1 e.2.2) s
  s.modCirc k fun c => { c with landing := c.landing.filter fun e => !decide (e.1 ≤ upto) }

/-- Parameter IDX of the running EVAL's side. -/
def State.readParam (s : State) (k : Nat) (r : Run) (h : CHead) (idx : Nat) : State × FVal :=
  let (s, l) := s.readBuf k (r.taker k 5) .ns ((if (s.kern k).circ.side then 0x30000 else 0x20000) + idx * h.psz) h.psz
  (s, match mergePoison (l.map (·.mark)) with
    | some o => .poison o
    | none => decodeF h.pform (leNat (l.map (·.b))))

/-! ## Sections of an EVAL (R297, R298) -/

/-- The node words and lists of a frame's section. -/
def Kern.frameWords (k : Kern) (right : Bool) (f : Frame) : List Nat × SLists :=
  let a := frameAddr right
  (numbers 8 f.nnode (k.ns.mem.read a (8 * f.nnode)),
   f.lists (numbers 4 (f.listBytes / 4) (k.ns.mem.read (a + 8 * f.nnode) f.listBytes)))

/-- The engine reads a frame: its errors are corrected or consumed (08 R200), and whether its section still stands whole. -/
def State.frameRead (s : State) (k : Nat) (r : Run) (right : Bool) (f : Frame) : State × Bool :=
  let s := s.consumeBuf k (r.taker k 5) .ns (frameAddr right) f.bytes
  (s, (s.kern k).frameIntact right f)

/-- The key of a spill entry among what an EVAL has read. -/
def fillKey (e : Nat) : Nat := 2 ^ 56 + 64 * e

/-- The fill entries of a section, once all have been read (R297). -/
def Run.fillsRead (r : Run) (mode : Nat) : List Nat → Option (Tab (BitVec 512))
  | [] => some []
  | e :: t =>
    match r.mem.bytes? (fillKey e) 64, r.fillsRead mode t with
    | some l, some m =>
      let raw := unpackSlot mode (BitVec.ofNat 512 (leNat (l.map (·.b))))
      let lanes := (List.range (slotLanes mode)).map fun b =>
        match (l.getD (b * (laneBits mode / 8)) ⟨0, none⟩).mark with
        | some o => poisonLane mode o
        | none => raw.getD b 0
      some (Tab.set m e (packSlot mode lanes))
    | _, _ => none

/-- A leaf binding loads its slot. -/
def State.loadLeaf (s : State) (k : Nat) (r : Run) (h : CHead) (b : Nat × Nat) : State :=
  let o := r.op
  let mode := o.mode h
  let t := o.evalTen 0
  let (s, lanes) := (List.range (slotLanes mode)).foldl (fun (acc : State × List Nat) i =>
    if o.live h r.cur.i i then
      let (s, l) := acc.1.readBuf k (r.taker k 5) .ab (t.elemAddr2 b.2 (o.row h r.cur.i i)) t.elemBytes
      (s, acc.2 ++ [leafLane mode o.sat t.format (leNat (l.map (·.b))) (mergePoison (l.map (·.mark)))])
    else (acc.1, acc.2 ++ [0])) (s, [])
  s.writeSlot k r b.1 (packSlot mode lanes)

/-- The section that is run after section j of group i, if any. -/
def Run.nextSection (r : Run) (h : CHead) : Option Nat :=
  if r.cur.j + 1 < h.nsec then some (r.cur.j + 1) else if r.cur.i + 1 < r.op.groups h then some 0 else none

/-- As a section begins its steps the next one is fetched into the other frame. -/
def State.prefetch (s : State) (k : Nat) (r : Run) (h : CHead) : State :=
  let x := s.kern k
  match (if h.nsec = 1 then none else r.nextSection h) with
  | none => s
  | some n => if (x.holds n).isSome || x.circ.fetch.isSome then s else s.startFetch k r n (!x.circ.right)

/-- A write of the operation stands at a line queue. -/
def State.writing (s : State) (k e id : Nat) : Bool := s.lines.any fun l => l.2.any fun x => x.agent == .engine k e id && x.write

/-- What a group adds to an EVAL's summary when it ends, completed or by a fault: its lanes that vanished, those with a poison
output, the first row that vanished (R308). -/
def Circ.tally (c : Circ) (o : Eop) (h : CHead) (i : Nat) : Circ :=
  let live := (List.range (slotLanes (o.mode h))).filter (o.live h i)
  let gone := live.filter fun b => c.vmask.getLsbD b
  { c with
    vanished := c.vanished + gone.length
    poisoned := c.poisoned + (live.filter fun b => c.pmask.getLsbD b).length
    firstRow := match c.firstRow, gone with | none, b :: _ => some (o.row h i b) | f, _ => f }

/-- An EVAL ends at a section that cannot be fetched, or whose words are lost in their frame while it runs (R298; log 117: DESIGN
CHOICE). -/
def State.evalBad (s : State) (k : Nat) (r : Run) (h : CHead) : State :=
  (s.modCirc k fun c => c.tally r.op h r.cur.i).circEnd k r 0x11 0 (8192 * r.cur.j)

/-- EVAL goes on between its steps as far as it can: 0 the section is needed; 1 its fills are being read; 4 its spills are
being written. -/
def State.evalStage (s : State) (k : Nat) (r : Run) : State :=
  let x := s.kern k
  let h := x.chead
  let o := r.op
  match r.cur.phase with
  | 0 =>
    match x.holds r.cur.j with
    | some right =>
      let s := match x.circ.frame right with | some f => (s.frameRead k r right f).1 | none => s
      let fills := match x.circ.frame right with | some f => (x.frameWords right f).2.fills | none => []
      let sp := (x.circ.spill.getD default).fields.base
      let s := s.modCirc k fun c => { c with right := right }
      s.modRun k 5 o.id.toNat fun y =>
        { y with mem := fills.foldl (fun m e => m.ask (fillKey e) (sp + 64 * e) 64) y.mem, cur := { y.cur with phase := 1 } }
    | none =>
      match x.circ.fetch with
      | some f =>
        if f.sec = r.cur.j ∧ f.bad then s.evalBad k r h else s
      | none => s.startFetch k r r.cur.j (if h.nsec = 1 then false else !x.circ.right)
  | 1 =>
    match x.circ.frame x.circ.right with
    | none => s
    | some f =>
      let (s, whole) := s.frameRead k r x.circ.right f
      let lists := (x.frameWords x.circ.right f).2
      match (if whole then r.fillsRead (o.mode h) lists.fills else some []) with
      | none => s
      | some m =>
        if !whole then s.evalBad k r h
        else
        let s := s.modCirc k fun c => { c with fills := m, landing := [] }
        let s := lists.leaves.foldl (fun s b => s.loadLeaf k r h b) s
        (s.modCursor k r fun c => { c with phase := 2, n := 0, m := 0, acc := s.hub.time + f.nlb }).prefetch k r h
  | 4 =>
    if !r.mem.wq.isEmpty || s.writing k 5 o.id.toNat || decide (s.hub.time < r.cur.acc) then s
    else if r.cur.j + 1 < h.nsec then s.modCursor k r fun c => { c with phase := 0, j := c.j + 1 }
    else s.modCursor k r fun c => { c with phase := 5 }
  | _ => s

/-- The running operation goes on between steps, stage after stage, to a save point where a full pre-emption waits (R311). -/
def State.circAdvance (k : Nat) : Nat → State → State
  | 0, s => s
  | fuel + 1, s =>
    match (s.kern k).mainRun with
    | none => s
    | some r =>
      if r.cur.fin.isSome || !s.circRuns (s.kern k) then s
      else
        let s := match (s.kern k).circ.fetch with | some f => if f.bad then s else s.fetchStage k r f | none => s
        match (s.kern k).mainRun with
        | none => s
        | some r => State.circAdvance k fuel (if r.op.code = 0x20 then s.cloadStage k r else s.evalStage k r)

/-- Enough stages for what one event can bring about. -/
def State.circGo (s : State) (k : Nat) : State := State.circAdvance k 6 s

/-! ## Steps (R289-R296) -/

/-- One node of a step: its result joins those to land, or is staged. -/
def State.evalNode (s : State) (k : Nat) (r : Run) (h : CHead) (ni : Nat) (n : Node) : State :=
  if n.op = 0 then s
  else
    let o := r.op
    let mode := o.mode h
    let step := r.cur.n
    let land := fun (s : State) (v : BitVec 512) => s.modCirc k fun c => { c with landing := c.landing ++ [(step, n.out, v)] }
    if n.op = 12 then land s (Tab.get 0 (s.kern k).circ.fills n.idx)
    else
      let (s, xs) := s.readSlot k r mode n.in1
      if n.op = 11 then s.modCirc k fun c => { c with spills := Tab.set c.spills n.idx (packSlot mode xs) }
      else
        let (s, ys) := if n.reads2 then s.readSlot k r mode n.in2 else (s, [])
        let (s, w) := if n.weighted then s.readParam k r h n.idx else (s, .fin ⟨false, 0, 0, false⟩)
        let live := o.live h r.cur.i
        let lanes := List.range (slotLanes mode)
        let (l, a) := (laneByLane live (fun b => nodeLane mode o.sat h.pform n (xs.getD b 0) (ys.getD b 0) w) lanes).run
          { s.arith (s.kern k) with lane := r.cur.i }
        let y := s.kern k
        let info : OInfo := ⟨y.coordNat, y.core, 5, ni, true, n.word, (packSlot mode xs).toNat % 2 ^ 128, 0⟩
        let s := a.made.foldl (fun t m => t.commitMade k info m) s
        let gone := lanes.filter fun b => live b && (l.getD b (0, false)).2
        let s := s.modCirc k fun c =>
          { c with
            vmask := gone.foldl (fun m b => m ||| BitVec.ofNat 16 (2 ^ b)) c.vmask
            first := gone.foldl (fun t b => if (Tab.get? t b).isSome then t else Tab.set t b ni) c.first }
        land s (packSlot mode (l.map (·.1)))

/-- The nodes of a step in word order. -/
def State.evalNodes (s : State) (k : Nat) (r : Run) (h : CHead) : Nat → List Node → State
  | _, [] => s
  | ni, n :: t => (s.evalNode k r h ni n).evalNodes k r h (ni + 1) t

/-- One step of a section (R289, R291): a failure stops the evaluation, and what has been issued lands. -/
def State.evalStep (s : State) (k : Nat) (r : Run) : State :=
  let s := if r.cur.n < 6 then s else s.landSteps k r (r.cur.n - 6)
  let x := s.kern k
  let h := x.chead
  match x.circ.frame x.circ.right with
  | none => s
  | some f =>
    let (s, whole) := s.frameRead k r x.circ.right f
    if !whole then (s.landSteps k r r.cur.n).evalBad k r h
    else
    let (words, lists) := x.frameWords x.circ.right f
    let nodes := stepNodes (words.drop r.cur.m)
    let ni := 8192 * r.cur.j + r.cur.m
    match stepFailure ⟨h, lists, x.circ.landing.map (·.2.1)⟩ 0 [] [] nodes with
    | some (reason, p) =>
      (s.landSteps k r r.cur.n).modCursor k r fun c => { c with phase := 6, words := [reason, ni + p] }
    | none =>
      let s := s.evalNodes k r h ni nodes
      let m := r.cur.m + nodes.length
      s.modCursor k r fun c =>
        if f.nnode ≤ m then { c with phase := 3, acc := s.hub.time + 1 + 6 + f.nob } else { c with n := c.n + 1, m := m, acc := s.hub.time + 1 }

/-- An output binding writes its rows (R297). -/
def State.writeOut (s : State) (k : Nat) (r : Run) (h : CHead) (b : Nat × Nat) : State :=
  let o := r.op
  let mode := o.mode h
  let t := o.evalTen 1
  let live := (List.range (slotLanes mode)).filter (o.live h r.cur.i)
  let (s, xs) := s.readSlot k r mode b.1
  let (l, a) := (laneByLane (fun _ => true) (fun i => outLane mode o.sat t.format (xs.getD i 0)) live).run
    { s.arith (s.kern k) with lane := r.cur.i }
  let y := s.kern k
  let s := a.made.foldl (fun t m => t.commitMade k ⟨y.coordNat, y.core, 5, o.id.toNat, false, o.code, 0, 0⟩ m) s
  let outs := live.zip l
  let s := s.writeBufs k (r.taker k 5)
    (outs.map fun e => ⟨.ab, t.elemAddr2 b.2 (o.row h r.cur.i e.1), leBytes t.elemBytes e.2.1, none⟩)
  s.modCirc k fun c => { c with pmask := outs.foldl (fun m e => if e.2.2 then m ||| BitVec.ofNat 16 (2 ^ e.1) else m) c.pmask }

/-- The end of a section (R297): every write has landed, outputs are written, spills begin. -/
def State.sectionEnd (s : State) (k : Nat) (r : Run) : State :=
  let s := s.landSteps k r r.cur.n
  let x := s.kern k
  let h := x.chead
  match x.circ.frame x.circ.right with
  | none => s
  | some f =>
    let (s, whole) := s.frameRead k r x.circ.right f
    if !whole then s.evalBad k r h
    else
    let lists := (x.frameWords x.circ.right f).2
    let s := lists.outs.foldl (fun s b => s.writeOut k r h b) s
    let sp := (x.circ.spill.getD default).fields.base
    let ws : List EWrite := lists.spills.flatMap fun e =>
      let b := leBytes 64 (Tab.get 0 (s.kern k).circ.spills e).toNat
      (cutPieces 64 3 0 (sp + 64 * e) 64).map fun p => ⟨p.2.1, (b.drop p.1).take p.2.2, none⟩
    let acc := if h.nsec = 1 then s.hub.time else s.hub.time + f.nsp
    s.modRun k 5 r.op.id.toNat fun y =>
      { y with mem := { y.mem with wq := y.mem.wq ++ ws }, cur := { y.cur with phase := 4, acc := acc } }

/-- CIRCUIT_STEP (R289): the next step, or the work between steps that has become possible. -/
def execCircuitStep (k : Nat) (s : State) : Out :=
  match s.kern? k with
  | none => .next s
  | some x =>
    if !s.circRuns x then .next s
    else
      let s := s.circGo k
      match (s.kern k).mainRun with
      | none => .next s
      | some r =>
        if r.cur.fin.isSome || r.op.code != 0x21 || decide (s.hub.time < r.cur.acc) then .next s
        else
          match r.cur.phase with
          | 2 => .next (s.evalStep k r)
          | 3 => .next ((s.sectionEnd k r).circGo k)
          | _ => .next s

/-- SECTION_FETCH_DONE (R298): what has been read of a section, or of the object at CLOAD, is checked and taken. -/
def execSectionFetchDone (k : Nat) (s : State) : Out :=
  match s.kern? k with
  | none => .next s
  | some x => if s.circRuns x then .next (s.circGo k) else .next s

/-! ## Groups (R299, R305) -/

/-- The 128 bytes of a status record (R299). -/
def Circ.groupRecord (c : Circ) (lmask : Nat) (fault : Bool) (cyc : Nat) : List Byte :=
  leBytes 2 c.vmask.toNat ++ leBytes 2 c.pmask.toNat ++ leBytes 2 lmask ++ leBytes 1 (if fault then 1 else 0) ++ leBytes 1 0
    ++ leBytes 8 cyc ++ leBytes 48 0 ++ (List.range 16).flatMap fun b => leBytes 4 (Tab.get 0xFFFF_FFFF c.first b)

/-- Words written to consecutive elements of a NAT32 tensor of AB. -/
def wordWrites (t : Tens) (i : Nat) (bytes : List Byte) : List BWrite :=
  (List.range (bytes.length / 4)).map fun n => ⟨.ab, t.elemAddr (i + n), (bytes.drop (4 * n)).take 4, none⟩

/-- The engine's state as a batch group begins. -/
def Circ.newGroup (c : Circ) (time : Nat) : Circ := { c with vmask := 0, first := [], pmask := 0, groupAt := time }

/-- CIRCUIT_GROUP_DONE (R299): the group's record, then the next group or the end of the EVAL. -/
def execCircuitGroupDone (k : Nat) (s : State) : Out :=
  match s.kern? k with
  | none => .next s
  | some x =>
    match x.mainRun with
    | none => .next s
    | some r =>
      if !(s.circRuns x || r.cur.phase == 5) || x.ctl.dead || r.cur.fin.isSome || r.op.code != 0x21
          || !(r.cur.phase == 5 || r.cur.phase == 6) then .next s
      else
        let h := x.chead
        let o := r.op
        let n := slotLanes (o.mode h)
        let fault := r.cur.phase == 6
        let live := (List.range n).filter (o.live h r.cur.i)
        let lmask := live.foldl (fun m b => m + 2 ^ b) 0
        let bytes := x.circ.groupRecord lmask fault (s.hub.time - x.circ.groupAt)
        let s := if o.hasRec then s.writeBufs k (r.taker k 5) (wordWrites (o.evalTen 2) (32 * r.cur.i) bytes) else s
        let s := s.modCirc k fun c =>
          { (c.tally o h r.cur.i).newGroup s.hub.time with groups := if fault then c.groups else c.groups + 1 }
        if fault then .next (s.circEnd k r 0x10 (r.cur.words.getD 0 0) (r.cur.words.getD 1 0))
        else if r.cur.i + 1 < o.groups h then .next (s.modCursor k r fun c => { c with phase := 0, i := c.i + 1, j := 0 })
        else .next (s.circEnd k r 0 0 0)

/-! ## Starting (R283, R300, R302, R305-R308) -/

/-- The operation that may start next (R283). -/
def Kern.circNext (k : Kern) : Option Eop :=
  match findAt (fun o : Eop => !o.started && !o.done) 0 k.circP.q with
  | none => none
  | some (i, o) =>
    let before := k.circP.q.take i
    let ok := if o.code = 0x22 ∨ o.code = 0x23 then before.all fun x => x.done || (x.started && x.code == 0x21)
      else before.all fun x => x.done
    if ok && k.startable o then some o else none

/-- The checks of an EVAL that need the object (R302). -/
def Kern.evalRange (k : Kern) (o : Eop) : Bool :=
  let h := k.chead
  let out := o.evalTen 1
  decide ((o.evalTen 0).fields.sz 0 < h.nleaf) || decide (out.fields.sz 0 < h.nout)
    || (!out.format.isFloat && o.mode h != 2)
    || (o.hasRec && decide ((o.evalTen 2).cap < 32 * o.groups h))
    || (List.range 16).any fun b => bitsOf h.banks b b == 1 && !(o.evalTen 3).footprintHas (131072 * b) 131072

/-- PUPD writes its side (R300, R306). -/
def State.startPupd (s : State) (k : Nat) (r : Run) : State :=
  let x := s.kern k
  let h := x.chead
  let o := r.op
  let side := bitsOf (o.reg 3) 8 8 == 1
  let t := o.ten (bitsOf (o.reg 3) 7 0)
  let n := bitsOf (o.reg 3) 60 48 + 1
  let first := bitsOf (o.reg 3) 44 32
  let eval := x.circP.runs.any fun y => y.op.code == 0x21
  if !x.circ.loaded then s.circEnd k r 0x14 0 0
  else if side == x.circ.act || (eval && side == x.circ.side) then s.circEnd k r 0x13 0 0
  else if (t.format.kind == 1) != h.pfmt || decide (h.npar < first + n) then s.circEnd k r 0x12 0 0
  else
    let (s, l) := (List.range n).foldl (fun (acc : State × List CByte) i =>
      let (s, b) := acc.1.readBuf k (r.taker k 5) .ab (t.elemAddr i) h.psz
      (s, acc.2 ++ b)) (s, [])
    (s.writeBufs k (r.taker k 5) [⟨.ns, (if side then 0x30000 else 0x20000) + first * h.psz, sideBytes h n l, none⟩]).circEnd
      k r 0 0 0

/-- CIRC_OP_START (R283). -/
def execCircOpStart (k : Nat) (s : State) : Out :=
  match s.kern? k with
  | none => .next s
  | some x =>
    match (if s.enginesRun x then x.circNext else none) with
    | none => .next s
    | some o =>
      let s := s.modKern k fun y => y.modPort 5 fun p => p.startRun o (.start o)
      let r := Run.start o
      match o.code with
      | 0x20 =>
        let t := o.ten (bitsOf (o.reg 2) 7 0)
        let s := s.modCirc k fun c => { c with loaded := false }
        if t.objHas 0 64 then .next (s.modRun k 5 o.id.toNat fun y => { y with mem := y.mem.ask t.fields.base t.fields.base 64 })
        else .next (s.circEnd k r 0x11 0 0)
      | 0x21 =>
        let s := s.modCirc k fun c =>
          { c.newGroup s.hub.time with
            side := c.act, right := true, fetch := none, evalAt := s.hub.time, groups := 0, vanished := 0, poisoned := 0
            firstRow := none, landing := [] }
        if !x.circ.loaded then .next (s.circEnd k r 0x14 0 0)
        else if x.evalRange o then .next (s.circEnd k r 0x12 0 0)
        else .next (s.circGo k)
      | 0x22 => .next (s.startPupd k r)
      | 0x23 =>
        .next (s.modKern k fun y =>
          let y := { y with circ := { y.circ with act := !y.circ.act } }
          (y.modPort 5 fun p => { p with recs := Tab.put 0 p.recs 2 (record o.id 0) }).completeOp 5 o.id)
      | _ =>
        let t := o.ten (bitsOf (o.reg 4) 7 0)
        let bytes := (List.range 8).flatMap fun n => leBytes 8 (x.circ.stat.getD n 0).toNat
        .next ((s.writeBufs k (r.taker k 5) (wordWrites t 0 bytes)).circEnd k r 0 0 0)

/-! ## Completion (R304, R308-R310) -/

/-- The summary that CSTAT writes of a completed EVAL (R308). -/
def Circ.summary (c : Circ) (o : Eop) (st reason group loc time : Nat) : List Word :=
  let ones := 2 ^ 64 - 1
  [o.id.toNat + st * 2 ^ 32 + reason * 2 ^ 40, c.groups, time - c.evalAt, c.vanished, c.poisoned,
   if st = 0x10 ∨ st = 0x11 then group * 2 ^ 32 + loc else ones, c.firstRow.getD ones, 0].map wordOf

/-- The records of a completed operation (R310). -/
def circRecords (o : Eop) (groups st reason group loc : Nat) (recs : Tab Word) : Tab Word :=
  let v := record o.id (st + 256 * reason)
  let t := Tab.put 0 recs 2 v
  let t := if o.code = 0x21 then Tab.put 0 t 4 (record o.id groups) else t
  let t := if st = 0 then t else Tab.put 0 t 5 v
  if st = 0x10 ∨ st = 0x11 then Tab.put 0 t 7 (wordOf (group * 2 ^ 32 + loc)) else t

/-- CIRC_OP_COMPLETE (R309). -/
def execCircOpComplete (k : Nat) (s : State) : Out :=
  match s.kern? k with
  | none => .next s
  | some x =>
    match x.circP.runs.find? fun r =>
      r.cur.fin.isSome && r.mem.want.isEmpty && r.mem.wq.isEmpty && !s.outstanding k 5 r.op.id.toNat with
    | none => .next s
    | some r =>
      if !(s.circRuns x || (s.circLives x && r.isShort)) then .next s
      else
        let (sr, loc) := r.cur.fin.getD (0, 0)
        let st := sr % 256
        let reason := sr / 256
        .next (s.modKern k fun y =>
          let c := y.circ
          let sp := if bitsOf (r.op.reg 2) 15 8 = 0xFF then none else some (r.op.ten (bitsOf (r.op.reg 2) 15 8))
          let c := if r.op.code = 0x20 ∧ st = 0 then { c with loaded := true, act := false, spill := sp }
            else if r.op.code = 0x21 then { c with stat := c.summary r.op st reason r.cur.i loc s.hub.time }
            else c
          let y := { y with circ := c }
          (y.modPort 5 fun p => { p with recs := circRecords r.op c.groups st reason r.cur.i loc p.recs }).completeOp 5 r.op.id)

end Sys2Proof.Machine
end

