-- ==== Sys2Proof/Machine/Link.lean ====
section
/-! DEFINITION. The link engines (16 R407-R410, R414, R415; 13 R347, R349). A message crosses a link as a whole: it stands on
the receiving port's wire until its last flit has entered the landing buffer, or a posted receive that takes it. -/

namespace Sys2Proof.Machine

/-! ## Ports (R407, R409) -/

/-- The place of a port. -/
def portKey (die port : Nat) : Nat := die * 5 + port

/-- A link port. -/
def State.lport (s : State) (key : Nat) : LinkPort := Tab.get LinkPort.reset s.links key

/-- The state with a link port changed. -/
def State.modLport (s : State) (key : Nat) (f : LinkPort → LinkPort) : State :=
  { s with links := Tab.put LinkPort.reset s.links key (f (s.lport key)) }

/-- The port at the other end of a die-to-die link; none for a fabric port (R407). -/
def peerPort (die port : Nat) : Option Nat :=
  if 3 ≤ port then none
  else
    let e := if port < die then port else port + 1
    some (portKey e (if die < e then die else die - 1))

/-- Bytes of a landing buffer that a message takes: a flit of 256 bytes for every 224 of data (R408). -/
def LMsg.flits (m : LMsg) : Nat := 256 * ceilDiv m.bytes.length 224

/-- Free bytes of a landing buffer of 256 KiB. -/
def LinkPort.free (p : LinkPort) : Nat := 262144 - (p.landing.foldl (fun n m => n + m.flits) 0)

/-- PAUSE and RESUME follow the free space of a landing buffer (R409); those of a fabric port go out. -/
def State.flowControl (s : State) (key : Nat) : State :=
  let p := s.lport key
  let held := if p.free < 32768 then true else if 65536 < p.free then false else p.held
  if held = p.held then s
  else
    let s := s.modLport key fun p => { p with held := held }
    if 3 ≤ key % 5 then { s with out := s.out ++ [.link key 0 (if held then 0x41 else 0x42) 0 0 0 [] []] } else s

/-- PAUSE (R409): the PAUSE flit of the other end reaches the sending side of a port; a fabric port's may come at any time. -/
def execPause (die port : Nat) (s : State) : Out :=
  if 4 ≤ die ∨ 5 ≤ port then .next s
  else
    match peerPort die port with
    | some peer => if (s.lport peer).held then .next (s.modLport (portKey die port) fun p => { p with paused := true }) else .next s
    | none => .next (s.modLport (portKey die port) fun p => { p with paused := true })

/-- RESUME (R409). -/
def execResume (die port : Nat) (s : State) : Out :=
  if 4 ≤ die ∨ 5 ≤ port then .next s
  else
    match peerPort die port with
    | some peer => if (s.lport peer).held then .next s else .next (s.modLport (portKey die port) fun p => { p with paused := false })
    | none => .next (s.modLport (portKey die port) fun p => { p with paused := false })

/-- FLIT_REPLAY (R409): a flit on the wire is dropped and sent again; nothing overtakes it. -/
def execFlitReplay (die port : Nat) (s : State) : Out :=
  let p := s.lport (portKey die port)
  if p.wire.isEmpty || p.down then .next s
  else .next (s.modLport (portKey die port) fun p => { p with replays := p.replays + 1 })

/-! ## Operations (R414, R415) -/

/-- PORT, NODE, STAG, LEN of an operation. -/
def Eop.lport (o : Eop) : Nat := bitsOf (o.reg 0) 10 8
def Eop.lnode (o : Eop) : Nat := bitsOf (o.reg 0) 48 32
def Eop.stag (o : Eop) : Nat := bitsOf (o.reg 0) 31 16
def Eop.llen (o : Eop) : Nat := bitsOf (o.reg 2) 31 0
/-- The local tensor. -/
def Eop.lten (o : Eop) : Tens := o.ten (bitsOf (o.reg 0) 7 0)

/-- The operation of a port context that may start on a link port: those of one port run in order, one at a time. -/
def Kern.linkNext (k : Kern) (port : Nat) : Option Eop :=
  match (k.link.q.filter fun o => !o.done && o.lport == port).head? with
  | some o => if k.startable o then some o else none
  | none => none

/-- A kernel whose link operation ends with a status. -/
def Kern.linkEnd (k : Kern) (id st : Nat) : Kern :=
  k.modPort 6 fun p => p.modRun id fun r => { r with cur := { r.cur with fin := some (st, 0) } }

/-- The state with a kernel changed, one that is resident or one that a full pre-emption has saved. -/
def State.modAny (s : State) (k : Nat) (f : Kern → Kern) : State :=
  if (s.kern? k).isSome then s.modKern k f
  else { s with launches := s.launches.map fun l =>
    (l.1, { l.2 with saved := l.2.saved.map fun (y : Kern) => if y.kid = k then f y else y }) }

/-- A kernel, resident or saved. -/
def State.anyKern? (s : State) (k : Nat) : Option Kern :=
  match s.kern? k with
  | some y => some y
  | none => (s.launches.flatMap fun l => l.2.saved).find? fun y => y.kid == k

/-- An operation of a kernel, resident or saved, ends with a status. -/
def State.linkEnd (s : State) (k id st : Nat) : State := s.modAny k fun y => y.linkEnd id st

/-- An uncontained fault that no kernel raises. -/
def State.ufault (s : State) (ctx code : Nat) : State :=
  { s with ufaults := s.ufaults ++ [⟨ctx, code, none, 0, 0, 0, 0, 0, 0⟩] }

/-- A context with a link operation on a port that is down takes the fault FABRIC, once (R409). -/
def State.fabricFault (s : State) (ctx : Nat) : State := if s.ufaults.any fun f => f.ctx == ctx then s else s.ufault ctx 0x06

/-- The link port of an operation. -/
def Kern.linkKey (k : Kern) (o : Eop) : Nat := portKey (k.core / 64) o.lport

/-- The far end of a fabric port has paused it: a send waits there (R409). -/
def State.linkPaused (s : State) (k : Kern) (o : Eop) : Bool := decide (3 ≤ o.lport) && (s.lport (k.linkKey o)).paused

/-- The marks of a message's sectors. -/
def messageMarks (l : List CByte) : List (Option Origin) :=
  (List.range (ceilDiv l.length 32)).map fun i => mergePoison (((l.drop (32 * i)).take 32).map (·.mark))

/-- The bytes of a message with the marks of their sectors, the first n. -/
def LMsg.cbytes (m : LMsg) (n : Nat) : List CByte :=
  (List.range (min n m.bytes.length)).map fun i => ⟨m.bytes.getD i 0, (m.marks.getD (i / 32) none)⟩

/-- A PUT that has crossed the link writes at RADDR in the context it names, each marked sector as a MEMWR with POISON: the hub
takes one origin for it from that context's log (14 R369). -/
def State.putWrites (s : State) (k : Nat) (o : Eop) (l : List CByte) : State :=
  let ctx := bitsOf (o.reg 0) 55 50
  let (w, _) := deviceWrites (bitsOf (o.reg 1) 48 0) l []
  let (g, s) := if w.any fun x => x.mark.isSome then s.takeOrigin (.hub ctx 9) kHOSTINJECT (bitsOf (o.reg 1) 48 0 + 2 ^ 51) else (0, s)
  let w := w.map fun x => if x.mark.isSome then { x with mark := some g } else x
  s.modAny k fun y => y.modPort 6 fun p => p.modRun o.id.toNat fun r => { r with mem := { r.mem with wq := w } }

/-- A send whose bytes have been read goes out (R415). -/
def State.linkSend (s : State) (k : Kern) (o : Eop) (l : List CByte) : State :=
  let id := o.id.toNat
  let bytes := l.map (·.b)
  let marks := messageMarks l
  let key := portKey (k.core / 64) o.lport
  let phase := fun (s : State) n => s.modRun k.kid 6 id fun r => { r with cur := { r.cur with phase := n } }
  match peerPort (k.core / 64) o.lport with
  | some peer =>
    phase (s.modLport peer fun p =>
      { p with wire := p.wire ++ [⟨o.lport, 0, o.stag, bytes, marks, some (k.kid, o.id), o.isPut⟩] }) 2
  | none =>
    let m := if o.isPut then
        HostOut.link key o.lnode 0x04 0 (bitsOf (o.reg 0) 55 50) (bitsOf (o.reg 1) 48 0) bytes marks
      else HostOut.link key o.lnode 0x40 o.stag 0 0 bytes marks
    phase { s with out := s.out ++ [m] } 3

/-! ## Receives (R415) -/

/-- The format of LRADD's elements. -/
def Eop.efmt (o : Eop) : Fmt :=
  match bitsOf (o.reg 0) 57 56 with | 0 => .f32 | 1 => .bf16 | _ => Fmt.int 6 32 true

/-- One element of LRADD: its new bits, or the origin that marks its sector. -/
def lradd (f : Fmt) (x m : Nat × Option Origin) : Arith (Nat × Option Origin) := do
  if f.isFloat then
    let v := fun (y : Nat × Option Origin) => match y.2 with | some o => FVal.poison (carried f o) | none => decodeF f y.1
    return ((← roundTo f (← fpAdd 0 (v x) (v m)) 0 false).toBits f, none)
  else
    match mergePoison [x.2, m.2] with
    | some o => return (0, some o)
    | none => return ((x.1 + m.1) % 2 ^ 32, none)

/-- The elements of LRADD in order, as one instance. -/
def lraddAll (f : Fmt) : List ((Nat × Option Origin) × (Nat × Option Origin)) → Arith (List (Nat × Option Origin))
  | [] => pure []
  | e :: t => do
    let v ← lradd f e.1 e.2
    let vs ← lraddAll f t
    return v :: vs

/-- Bytes as an element with the merged origin of their sectors. -/
def elementOf (l : List CByte) : Nat × Option Origin := (leNat (l.map (·.b)), mergePoison (l.map (·.mark)))

/-- LRADD adds a message's bytes to the tensor's elements. -/
def State.linkAdd (s : State) (k : Kern) (r : Run) (l : List CByte) : State :=
  let o := r.op
  let f := o.efmt
  let w := f.w / 8
  let b := o.lten.fields.buf
  let base := o.lten.fields.base
  let n := l.length / w
  let (s, old) := s.readBuf k.kid (r.taker k.kid 6) b base (n * w)
  let pairs := (List.range n).map fun i => (elementOf ((old.drop (i * w)).take w), elementOf ((l.drop (i * w)).take w))
  let (out, a) := (lraddAll f pairs).run (s.dieArith (s.kern k.kid))
  let s := a.made.foldl (fun t m => t.commitDie k.kid ⟨k.coordNat, k.core, 6, o.id.toNat, false, o.code, 0, 0⟩ m) s
  s.writeBufs k.kid (r.taker k.kid 6) (((List.range n).zip out).map fun e =>
    match e.2.2 with
    | some g => ⟨b, base + w * e.1, [], some g⟩
    | none => ⟨b, base + w * e.1, leBytes w e.2.1, none⟩)

/-- A message meets the receive that takes it. -/
def State.linkDeliver (s : State) (v : Recv) (m : LMsg) : State :=
  let k := s.kern v.k
  match k.link.runs.find? fun r => r.op.id == v.id with
  | none => s
  | some r =>
    let o := r.op
    let n := min m.bytes.length o.llen
    let l := m.cbytes n
    let s := { s with recvs := s.recvs.filter fun x => !(x.k == v.k && x.id == v.id) }
    let s := if o.code = 0x32 then s.linkAdd k r (l.take (n / (o.efmt.w / 8) * (o.efmt.w / 8)))
      else if o.lten.fields.buf = .dm then
        s.modRun v.k 6 o.id.toNat fun y => { y with mem := { y.mem with wq := (deviceWrites o.lten.fields.base l []).1 } }
      else s.writeBufs v.k (r.taker v.k 6) (bufferWrites o.lten.fields.buf o.lten.fields.base l []).1
    s.linkEnd v.k o.id.toNat (if m.bytes.length = o.llen then 0 else 0x30)

/-- A receive and a message name the same port, node and tag. -/
def Recv.takes (v : Recv) (key : Nat) (m : LMsg) : Bool := portKey v.die v.port == key && v.node == m.src && v.tag == m.tag

/-- A posted receive takes the oldest message that already waits for it. -/
def State.linkPost (s : State) (v : Recv) : State :=
  let key := portKey v.die v.port
  match findAt (v.takes key) 0 (s.lport key).landing with
  | some (i, m) => ((s.modLport key fun p => { p with landing := dropAt p.landing i }).linkDeliver v m).flowControl key
  | none => { s with recvs := s.recvs ++ [v] }

/-- The key under which a send's source bytes are kept. -/
def Eop.sendKey (o : Eop) : Nat := o.lten.key o.lten.fields.base

/-- An operation starts on its link port (R414): a receive is posted; a send reads its source, once every earlier port access
has been performed (13 R347) and nothing pauses it. On a port that is down it brings its context the fault FABRIC (R409). -/
def State.linkStart (s : State) (k : Kern) (o : Eop) : State :=
  if (s.lport (k.linkKey o)).down then s.fabricFault k.ctx
  else if o.code = 0x30 ∧ (!s.portPast k o || s.linkPaused k o) = true then s
  else
    let s := s.modKern k.kid fun y => y.modPort 6 fun p => p.startRun o (.start o)
    if o.code = 0x30 then
      if o.lten.fields.buf = .dm then
        s.modRun k.kid 6 o.id.toNat fun y => { y with mem := y.mem.ask o.sendKey o.lten.fields.base o.llen }
      else
        let (s, l) := s.readBuf k.kid (.kern k.kid 6 o.id.toNat o.code) o.lten.fields.buf o.lten.fields.base o.llen
        s.linkSend k o l
    else
      s.linkPost ⟨k.core / 64, o.lport, k.kid, o.id, o.lnode, o.stag, 0⟩

/-- A send whose source has been read from device memory goes out. One that stands on a port that is down, since its kernel has been
restored there, brings its context the fault FABRIC (R409). -/
def State.linkStage (s : State) (k : Kern) (r : Run) : State :=
  if r.op.code = 0x30 ∧ r.cur.phase = 0 ∧ r.cur.fin = none ∧ (s.lport (k.linkKey r.op)).down then s.fabricFault k.ctx
  else if r.op.code = 0x30 ∧ r.cur.phase = 0 ∧ r.cur.fin = none ∧ s.linkPaused k r.op = false then
    match r.mem.bytes? r.op.sendKey r.op.llen with
    | some l => if r.op.lten.fields.buf = .dm then s.linkSend k r.op l else s
    | none => s
  else s

/-- What a port context can do by itself: finish reading, start operations. -/
def State.linkGo (s : State) (k : Kern) : State :=
  let s := k.link.runs.foldl (fun s r => s.linkStage k r) s
  [0, 1, 2, 3, 4].foldl (fun s p =>
    let y := s.kern k.kid
    match y.linkNext p with
    | some o => s.linkStart y o
    | none => s) s

/-! ## Events -/

/-- The operation that has sent a message. -/
def State.senderOf (s : State) (m : LMsg) : Option (Nat × Eop) :=
  m.from_.bind fun f => (s.anyKern? f.1).bind fun y => (y.link.runs.find? fun r => r.op.id == f.2).map fun r => (f.1, r.op)

/-- A PUT of this package has arrived: its writes begin (R415). -/
def State.putArrives (s : State) (m : LMsg) : State :=
  match s.senderOf m with
  | some (k, o) => (s.putWrites k o (m.cbytes m.bytes.length)).linkEnd k o.id.toNat 0
  | none => s

/-- LINK_MESSAGE_ARRIVAL (R415): the oldest message on a port's wire has arrived, unless its sender is paused or a port of the link is
down: a PUT's writes begin; any other has entered the landing buffer, where the oldest posted receive with its node and tag takes
it. -/
def execLinkMessageArrival (die port : Nat) (s : State) : Out :=
  let key := portKey die port
  let p := s.lport key
  let stopped := match peerPort die port with | some peer => (s.lport peer).paused || (s.lport peer).down | none => p.held
  if 4 ≤ die || 5 ≤ port || p.down || stopped then .next s
  else
    match p.wire with
    | [] => .next s
    | m :: rest =>
      if m.put then .next ((s.modLport key fun p => { p with wire := rest, replays := 0 }).putArrives m)
      else
      let taken := s.recvs.find? fun v => v.takes key m && (s.kern? v.k).isSome
      if taken.isNone && decide (p.free < m.flits) then .next s
      else
        let s := s.modLport key fun p => { p with wire := rest, replays := 0 }
        let s := match m.from_ with
          | some (k, id) => s.linkEnd k id.toNat 0
          | none => s
        match taken with
        | some v => .next (s.linkDeliver v m)
        | none => .next ((s.modLport key fun p => { p with landing := p.landing ++ [m] }).flowControl key)

/-- The status with which a running operation may now complete: that of its end; a PCLEAN page's; a send to another node ends
when the far end has it, a PUT with what the far end answers. -/
def State.linkStatus (s : State) (k : Nat) (r : Run) : Option (Nat × Origin) :=
  if !r.mem.want.isEmpty || !r.mem.wq.isEmpty || s.outstanding k 6 r.op.id.toNat then none
  else
    match r.mem.pclean, r.cur.fin with
    | some o, _ => some (0x32, o)
    | none, some (st, _) => some (st, 0)
    | none, none =>
      if r.cur.phase ≠ 3 then none
      else if r.op.isPut && Config.coin s.choices then some (0x33, 0) else some (0, 0)

/-- LINK_OP_COMPLETE (R415). -/
def execLinkOpComplete (k : Nat) (s : State) : Out :=
  match s.kern? k with
  | none => .next s
  | some x =>
    match x.link.runs.find? fun r => (s.linkStatus k r).isSome with
    | none => .next s
    | some r =>
      if !s.enginesRun x then .next s
      else
        let (st, o) := (s.linkStatus k r).getD (0, 0)
        let s := { s with choices := s.choices + 1 }
        .next (s.modKern k fun y => (y.modPort 6 fun p =>
          let v := record r.op.id st
          let recs := Tab.put 0 p.recs 2 v
          let p := { p with recs := if st = 0 then recs else Tab.put 0 recs 3 v }
          if st = 0x32 then p.reportPoison r.op.id o else p).completeOp 6 r.op.id)

/-- LINK_TIMEOUT (R415): a receive of the kernel that has waited LINKTO without a message ends. -/
def execLinkTimeout (k : Nat) (s : State) : Out :=
  match s.recvs.find? fun v => v.k == k && decide (s.hub.linkTo * Config.cyclesPerUs ≤ v.waited) with
  | none => .next s
  | some v =>
    let s := { s with recvs := s.recvs.filter fun x => !(x.k == v.k && x.id == v.id) }
    .next (s.linkEnd k v.id.toNat 0x31)

/-- The context that a host request acts in: a QAPPEND in that of its queue; the CFG space belongs to none. -/
def State.contextOf (s : State) (m : Msg) : Option Nat :=
  if m.kind = 3 ∨ m.kind = 4 ∨ m.kind = 6 then some m.ctx
  else if m.kind = 5 ∧ (s.queue (m.addr % 2 ^ 7)).st ≠ .unbound then some (s.queue (m.addr % 2 ^ 7)).ctx
  else none

/-- The contexts with a link operation on a port, one that a saved kernel has begun there among them, or with a host request in flight
through it. -/
def State.usersOf (s : State) (die port : Nat) : List Nat :=
  let key := portKey die port
  let saved := s.launches.flatMap fun l => l.2.saved
  dedup ((s.kerns.filter fun k => k.core / 64 == die && k.link.q.any fun o => !o.done && o.lport == port).map (·.ctx)
    ++ (saved.filter fun k => k.core / 64 == die && k.link.q.any fun o => o.started && !o.done && o.lport == port).map (·.ctx)
    ++ (s.hostIn.filter fun m => m.via == key).filterMap s.contextOf
    ++ (s.hub.panReqs.filter fun r => r.via == key).map (·.ctx)
    ++ (s.putsHeld.filter fun m => m.via == key).map (·.ctx)
    ++ (s.reqs.filter fun r => r.2.via == key).map fun r => r.2.ctx)

/-- PORT_DOWN (R409): the port is down, with the uncontained fault FABRIC for the contexts that use it. -/
def execPortDown (die port : Nat) (s : State) : Out :=
  if 4 ≤ die || 5 ≤ port || (s.lport (portKey die port)).down then .next s
  else
    let users := s.usersOf die port
    let s := s.modLport (portKey die port) fun p => { p with down := true }
    .next (users.foldl (fun s c => s.ufault c 0x06) s)

end Sys2Proof.Machine
end

