-- ==== Sys2Proof/Machine/EngineAccess.lean ====
section
/-! DEFINITION. ENGINE_ACCESS (13 R333): an engine operation's next device-memory access on its way to a line queue. -/

namespace Sys2Proof.Machine

/-- The engine may place accesses: while a full pre-emption waits, the circuit engine on its way to a save point alone. -/
def State.mayAccess (s : State) (k : Kern) (e : Nat) : Bool := if e = 5 then s.circRuns k else s.enginesRun k

/-- While a full pre-emption waits, the other engines finish the iteration, the step or the flit that they are in: what has left them
for device memory is still written (09 R242; 12 R330; 16 R415). -/
def State.mayFinish (s : State) (k : Kern) (e : Nat) : Bool := e != 5 && s.circLives k && s.quiesced k

/-- A copy channel's transfer brought up to date: chunks move, and an EXPAND asks for its next bundle. -/
def State.copyGo (s : State) (k e : Nat) : State :=
  let s := s.moveChunks k e
  match s.copyRun k e with
  | none => s
  | some r =>
    if r.op.copy.expand && r.op.srcDevice then
      s.modRun k e r.op.id.toNat fun y => y.expandWants (s.outstanding k e r.op.id.toNat)
    else s

/-- The accesses that a port's running operations may place, with their operations. -/
def Port.cands (p : Port) : List (Run × ECand) := p.runs.flatMap fun r => r.cands.map fun c => (r, c)

/-- ENGINE_ACCESS (R333): the j-th access of engine e of kernel k, once a copy channel has moved the chunks it can move and a
link port context has started what it can start. -/
def execEngineAccess (k e j : Nat) (s : State) : Out :=
  match s.kern? k with
  | none => .next s
  | some x =>
    if 7 ≤ e then .next s
    else if s.mayFinish x e then
      match (((x.port e).cands.filter fun c => c.2.isWrite).drop j).head? with
      | none => .next s
      | some (r, c) => .next (s.placeAccess x e r c)
    else if !s.mayAccess x e then .next s
    else
      let s := if e < 4 then s.copyGo k e else if e = 6 then s.linkGo x else s
      match (((s.kern k).port e).cands.drop j).head? with
      | none => .next s
      | some (r, c) => .next (s.placeAccess (s.kern k) e r c)

end Sys2Proof.Machine
end

