-- ==== Sys2Proof/Machine/Segment.lean ====
section
/-! DEFINITION. Segments close, rewind and are compared (14 R372-R380, R384). -/

namespace Sys2Proof.Machine

/-! ## Commit (R378) -/

/-- A held operation is released to where it would have gone. -/
def State.release (s : State) (k : Kern) (h : HeldOp) : State :=
  match h with
  | .ego e id => s.modKern k.kid fun y => y.modPort e fun p =>
      { p with q := p.q.map fun o => if o.id = id then { o with held := false } else o }
  | .qpost q bytes pseq => s.postPacket k.kid q bytes pseq
  | .bwph v => { s with hub := { s.hub with bwq := s.hub.bwq ++ [(k.ctx, v)] } }

/-- The held operations are released in issue order, the sanitise additions applied, the logs cleared. -/
def State.commitSegment (s : State) (k : Kern) (g : Seg) : State :=
  let s := s.modCore k.core fun c => { c with port := c.port.map fun x => if x.kid = k.kid then { x with held := false } else x }
  let s := g.held.foldl (fun s h => s.release k h) s
  let s := s.modCtx k.ctx fun c => { c with san := satCount c.san g.sanitise }
  s.modKern k.kid fun y => { y with seg := none }

/-- The core stands where its segment closes, or before the rendezvous that will close it. -/
def State.atClose (s : State) (k : Kern) : Bool := s.closing k || s.preClosing k

/-- SEGMENT_COMMIT (R378): every result has landed and its check bits agree. -/
def execSegmentCommit (k : Nat) (s : State) : Out :=
  match s.kern? k with
  | none => .next s
  | some x =>
    match x.seg with
    | none => .next s
    | some g => if s.closing x && x.landed && !x.mismatch && !x.inRerun then .next (s.commitSegment x g) else .next s

/-! ## Restoring (R379) -/

/-- A buffer with the logged bytes and marks of some of its lines back in place; the checksum columns of the granules written
are recomputed (10 R256). -/
def Buf.restore (x : Buf) (b : BufId) (undo : List BWrite) (marks : List (BufId × Nat × Option Origin))
    (ue : List (BufId × Nat)) : Buf :=
  let mem := undo.foldl (fun m w => if w.buf = b then m.writeAll w.addr w.bytes else m) x.mem
  let ms := marks.foldl (fun (t : Tab Origin) e =>
    if e.1 = b then (match e.2.2 with | some o => Tab.set t e.2.1 o | none => t.erase e.2.1) else t) x.marks
  let back := fun w => undo.any fun u => u.buf == b && rangeTouches (u.addr, u.bytes.length) w
  let bad := (ue.filter fun e => e.1 == b).map (·.2)
  { x with mem := mem, marks := ms, ue := (x.ue.filter fun w => !back w) ++ dedup bad, upset := x.upset.filter fun g => !undo.any fun w => w.buf == b && w.addr / 2048 == g }

/-- The held operations of an engine port are taken back: their regions return to CORE, the identifiers are free again. -/
def Kern.dropHeld (k : Kern) (e : Nat) : Kern :=
  let gone := (k.port e).q.filter (·.held)
  let rest := (k.port e).q.filter (!·.held)
  let back := (gone.flatMap (·.regions)).filter fun key => !rest.any fun o => !o.done && o.regions.contains key
  let k := k.modPort e fun p => { p with q := rest, last := p.last - BitVec.ofNat 32 gone.length }
  k.takeRegions (back.filter fun key => Tab.get 0 k.own key == e + 1)

/-- What a rewind keeps of the core's control state: interrupts still pending, halves made stale. -/
def Ctl.rewind (now ck : Ctl) (pause : Nat) : Ctl :=
  { ck with
    tried := false
    cui := ck.cui ++ now.cui.filter fun c => !ck.cui.contains c
    stale0 := ck.stale0 || now.stale0
    stale1 := ck.stale1 || now.stale1
    dead := now.dead
    pause := pause }

/-- Step 3 of R379: the logs and the checkpoint bank restored, the segment begun anew as rerun `n`. -/
def Kern.restore (k : Kern) (g : Seg) (n pause : Nat) : Kern :=
  let k := (List.range 7).foldl Kern.dropHeld k
  let c := g.ck
  { k with
    regs := c.regs, preds := c.preds, masks := c.masks, vregs := c.vregs, lat := c.lat, latSaved := c.latSaved, spr := c.spr
    ctl := k.ctl.rewind c.ctl pause
    fmts := c.fmts, tdt := c.tdt, streams := c.streams, units := c.units, mat := c.mat
    inbox := if g.exchange then c.inbox else k.inbox
    cyc := c.cyc, flights := c.flights, dw := c.dw
    ab := k.ab.restore .ab g.undo g.undoMarks g.undoUe
    ws := k.ws.restore .ws g.undo g.undoMarks g.undoUe
    xs := k.xs.restore .xs g.undo g.undoMarks g.undoUe
    scales := g.undoScales.foldl (fun t e => Tab.put 0 t e.1 e.2) k.scales
    seg := some { g with
      lines := [], tiles := [], undo := [], undoScales := [], undoMarks := [], undoUe := [], held := [], heldStores := 0, given := 0
      count := 0, trace := [], sanitise := 0, rerun := n, error := false } }

/-- The cycles of a restore: 64 + L + 32 T. -/
def Seg.cost (g : Seg) : Nat := 64 + g.lines.length + 32 * g.tiles.length

/-- A core restores: the segment's held stores and outstanding loads are discarded; a handler that froze the domain is left. -/
def State.restoreCore (s : State) (k : Kern) (g : Seg) (n pause : Nat) : State :=
  let s := s.modCore k.core fun c => { c with
    port := dropFences false (c.port.filter fun x => !(x.kid == k.kid && (x.held || (x.op.isLoad && decide (g.pseq ≤ x.seq))))) }
  let s := s.modKern k.kid fun y => y.restore g n pause
  if k.ctl.handler && k.ctl.froze && !s.stillFrozen k.dom then s.modDom k.dom fun d => { d with release := some 1 } else s

/-- The kernels that rewind with a kernel (R380): those of its domain with a segment open where one of them holds an exchange, else
itself. -/
def State.rewindSet (s : State) (k : Kern) : List Kern :=
  let all := s.kerns.filter fun y => y.dom == k.dom && y.seg.isSome
  if all.any fun y => (match y.seg with | some g => g.exchange | none => false) then all else [k]

/-- What a kernel still lets land before it restores. -/
def Kern.quiet (k : Kern) : Bool := k.flights.isEmpty && k.dw.isEmpty

/-- Kernels restore together: alone a core sets the window flag; after an exchange the cores leave the opening rendezvous 8
cycles after the last of them has restored, which clears it (R380; 06 R153). -/
def State.restoreAll (s : State) (l : List Kern) (n : Nat) : State :=
  let costs := l.map fun k => match k.seg with | some g => g.cost | none => 0
  let together := l.length != 1
  let last := costs.foldl max 0 + 8
  let ex := l.any fun k => match k.seg with | some g => g.exchange | none => false
  let s := l.foldl (fun s k =>
    match k.seg with
    | some g => s.restoreCore k { g with exchange := g.exchange || ex } n (if together || ex then last else g.cost)
    | none => s) s
  match l with
  | k :: _ =>
    let s := match s.dom? k.dom with | some d => s.modSite d.site fun t => { t with chosen := none } | none => s
    s.modDom k.dom fun d => { d with restart := none, broken := !ex }
  | [] => s

/-- The first run's count and signature are kept. -/
def State.keepRun (s : State) (k : Kern) : State :=
  match k.seg with
  | none => s
  | some g => s.modKern k.kid fun y => { y with seg := some { g with count1 := g.count, sig1 := g.sig } }

/-- A detected error of the segment, or a mismatch found in the hold at its end (R378, R379). -/
def State.segError (s : State) (k : Kern) : Bool := k.inError || (s.atClose k && k.landed && k.mismatch)

/-- SEGMENT_REWIND (R379): the restore after a detected error, and the one between the two runs. -/
def execSegmentRewind (k : Nat) (s : State) : Out :=
  match s.kern? k with
  | none => .next s
  | some x =>
    match x.seg with
    | none => .next s
    | some g =>
      let l := s.rewindSet x
      if x.inRerun = false ∧ s.segError x = true then
        if l.all Kern.inError && l.all Kern.quiet then .next (s.restoreAll l 1)
        else if l.all Kern.inError then .next s
        else .next (l.foldl (fun s y => s.modKern y.kid fun z => { z with seg := z.seg.map fun h => { h with error := true } }) s)
      else if g.rerun = 1 ∧ (l.all fun y => s.atClose y && y.landed && !y.mismatch
          && (match y.seg with | some h => h.rerun == 1 | none => false)) = true then
        let s := l.foldl State.keepRun s
        .next (s.restoreAll (l.map fun y => s.kern y.kid) 2)
      else .next s

/-! ## Comparing, retirement (R379 step 6, R384) -/

/-- A core is retired: the fault RETIRE with both signatures, EVENT 0x06, and co-resident launches of other contexts are to
be pre-empted fully. -/
def State.retire (s : State) (k : Kern) (sig1 sig2 : Word) : State :=
  let s := s.uncontained k.kid 0x01 0 0 0 (pcValue k.ctl.pc 0) sig1 sig2
  let s := s.modCore k.core fun c => { c with retired := true }
  let others := dedup ((s.kerns.filter fun y => y.core == k.core && y.ctx != k.ctx).map (·.launch))
  { s with
    hub := { s.hub with
      outOfService := s.hub.outOfService ++ [k.core]
      victims := s.hub.victims ++ others.filter fun l => !s.hub.victims.contains l }
    out := s.out ++ [.event 0x06 k.ctx k.core 0 []] }

/-- RERUN_COMPARE (R379): at the end of the second run, or when an error arises in either; in the first there is no second signature
(R383). -/
def execRerunCompare (k : Nat) (s : State) : Out :=
  match s.kern? k with
  | none => .next s
  | some x =>
    match x.seg with
    | none => .next s
    | some g =>
      if x.inRerun = false ∨ x.ctl.dead = true then .next s
      else if s.segError x then
        .next (if g.rerun = 1 then s.retire x g.sig 0 else s.retire x g.sig1 g.sig)
      else if g.rerun = 2 ∧ s.atClose x = true ∧ x.landed = true then
        if g.count = g.count1 ∧ g.sig = g.sig1 then
          .next (s.modKern k fun y => { y with seg := some { g with rerun := 3 } })
        else .next (s.retire x g.sig1 g.sig)
      else .next s

end Sys2Proof.Machine
end

