-- ==== Sys2Proof/Machine/Pan.lean ====
section
/-! DEFINITION. The pans and the hub's own accesses to device memory (09 R233-R241; 14 R364-R367, R371). -/

namespace Sys2Proof.Machine

/-! ## Power states (R234-R236) -/

/-- No request for the group stands at a line queue (R236), and no page walk waits for it. -/
def State.groupQuiet (s : State) (g : Nat) : Bool :=
  (s.lines.all fun l => l.2.isEmpty || groupOf (64 * l.1) != g)
    && (s.panReady g || s.walks.all fun r => s.waitsAt r.ctx r.va != some g)

/-- 100 ns, 60 cycles, without a request at an ACTIVE group (R234). -/
def State.idles (s : State) (g : Nat) : Bool :=
  let p := s.pan g
  p.st == .active && !p.init && s.groupQuiet g && decide (p.touched + 60 ≤ s.hub.time)

/-- HOTCNT is 0, and no request for COLDIDLE, or empty queues since a BWPHASE write let HOTCNT fall to 0, even while the group
wakes (R236). -/
def State.retires (s : State) (g : Nat) : Bool :=
  let p := s.pan g
  p.alloc && !p.init && (p.st == .active || p.st == .idle || (p.st == .waking && p.cold)) && p.hotcnt == 0 && s.groupQuiet g
    && (p.cold || decide (p.touched + s.hub.coldIdle * Config.cyclesPerUs ≤ s.hub.time))

/-- A wake is over (R234). -/
def State.woken (s : State) (g : Nat) : Bool :=
  let p := s.pan g
  p.st == .waking && decide (p.ready ≤ s.hub.time)

/-- PAN_IDLE (R234). -/
def execPanIdle (g : Nat) (s : State) : Out :=
  if s.idles g then .next (s.modPan g fun p => { p with st := .idle }) else .next s

/-- PAN_RETAIN (R236). -/
def execPanRetain (g : Nat) (s : State) : Out :=
  if s.retires g then .next (s.modPan g fun p => { p with st := .retain, cold := false }) else .next s

/-- PAN_WAKE_DONE (R234). -/
def execPanWakeDone (g : Nat) (s : State) : Out :=
  if s.woken g then .next (s.modPan g fun p => { p with st := .active }) else .next s

/-- The change of power state that is due at a pan group: each happens at its time (R234, R236). -/
def State.panAct (s : State) (e : Nat × Pan) : Option Instr :=
  if s.woken e.1 then some (.panWakeDone e.1)
  else if s.retires e.1 then some (.panRetain e.1)
  else if s.idles e.1 then some (.panIdle e.1)
  else none

/-! ## HOTCNT (R234, R239, R241) -/

/-- The enabled contexts whose BWPHASE declares a group hot, at most 255. -/
def State.declared (s : State) (g : Nat) : Nat :=
  min 255 ((List.range 64).filter fun c => (s.context c).en && (s.context c).bwphase.getLsbD g).length

/-- HOTCNT of every group as the contexts now declare them; a group whose count a BWPHASE write lets fall to 0 is to be retained
(R236). -/
def State.recount (s : State) (write : Bool) : State :=
  (List.range Config.groups).foldl (fun s g =>
    s.modPan g fun p =>
      if p.alloc && !p.init then
        let n := s.declared g
        { p with hotcnt := n, cold := if n = 0 then p.cold || (write && decide (0 < p.hotcnt)) else false }
      else p) s

/-- The segment of a kernel holds a BWPH (14 R376). -/
def Kern.holdsPhase (k : Kern) : Bool :=
  match k.seg with
  | none => false
  | some g => g.held.any fun h => match h with | .bwph _ => true | _ => false

/-- A context's BWPHASE becomes v (R241): HOTCNT is adjusted, newly declared groups wake, and every core's view of the context takes
the value, but where a write of the context that is still to arrive will replace it: a core that has written a newer value keeps
that (R240). The hub sends a power event. -/
def State.applyPhase (s : State) (c : Nat) (v : BitVec 42) : State :=
  let old := (s.context c).bwphase
  let s := (s.modCtx c fun x => { x with bwphase := v }).recount true
  let newer := s.hub.bwq.any fun e => e.1 == c
  let s := { s with kerns := s.kerns.map fun (k : Kern) =>
    if k.ctx = c ∧ newer = false ∧ k.holdsPhase = false then { k with spr := { k.spr with bwphase := v } } else k }
  let s := (List.range Config.groups).foldl (fun s g =>
    if v.getLsbD g && !old.getLsbD g && (s.pan g).alloc then s.startWake g else s) s
  { s with out := s.out ++ [.event 0x05 c (v.toNat / 2 ^ 32) 0 []] }

/-- HUB_BWPHASE_APPLY (R241): the oldest write that has arrived. -/
def execHubBwphaseApply (s : State) : Out :=
  match s.hub.bwq with
  | [] => .next s
  | (c, v) :: rest => .next ({ s with hub := { s.hub with bwq := rest } }.applyPhase c v)

/-! ## Initialisation (R235) -/

/-- A group's contents zeroed, with valid ECC. -/
def State.zeroGroup (s : State) (g : Nat) : State :=
  let keep := fun (pa : Nat) => groupOf pa != g
  { s with
    mem := s.mem.filter fun e => keep e.1
    marks := s.marks.filter fun e => keep (32 * e.1)
    ue := s.ue.filter fun x => keep (32 * x)
    ce := s.ce.filter fun x => keep (32 * x)
    encTag := s.encTag.filter fun e => keep (64 * e.1) }

/-- PAN_INIT_DONE (R235): INIT clears and HOTCNT counts the declarations. -/
def execPanInitDone (g : Nat) (s : State) : Out :=
  let p := s.pan g
  if p.init && p.st == .active then
    let s := s.zeroGroup g
    .next (s.modPan g fun p => { p with init := false, hotcnt := s.declared g, cold := false, touched := s.hub.time })
  else .next s

/-! ## Scrubbing (R238; 14 R371) -/

/-- A find enters the scrubber's table of 4,096 addresses, unless it stands there. -/
def Hub.find (h : Hub) (sec : Nat) (tag : Bool) : Hub :=
  if h.scrubTable.any fun x => x.1 == sec then h
  else if h.scrubTable.length < 4096 then { h with scrubTable := h.scrubTable ++ [(sec, tag)] }
  else h

/-- The pages with ENC that a table and those below it map: address and size. -/
def State.encFrom (s : State) : List Level → Nat → List (Nat × Nat)
  | [], _ => []
  | l :: ls, table =>
    (List.range (2 ^ l.width)).flatMap fun i =>
      let e := s.physWord (table + 8 * i)
      if e % 2 = 0 ∨ badEntry l true e ∨ (s.pan (entryGroup e)).alloc = false then []
      else if bitsOf e 1 1 = 1 then (if bitsOf e 9 9 = 1 then [(entryPa e, l.page)] else [])
      else s.encFrom ls (entryPa e)

/-- The pages with ENC of every context with an installed key, in a group: address, size, and the tag that the context's key makes. -/
def State.encPages (s : State) (g : Nat) : List (Nat × Nat × Nat) :=
  (s.ctxs.flatMap fun e =>
    let off := e.2.rootoff.toNat * 2 ^ 13
    if e.2.keySt ≠ 1 ∨ (s.pan e.2.rootg.toNat).alloc = false ∨ Config.groupBytes ≤ off then []
    else (s.encFrom levels (e.2.rootg.toNat * Config.groupBytes + off)).map fun p => (p.1, p.2, s.ctxTag e.1)).filter
      fun p => groupOf p.1 == g

/-- The lines of a group on pages with ENC whose tag verifies under the key of no context that maps them so, rising (log 125: DEDUCED). -/
def State.badTags (s : State) (g : Nat) : List Nat :=
  let pages := s.encPages g
  let units := pages.foldl (fun (t : Tab Unit) p =>
    (List.range (p.2.1 / 2 ^ 16)).foldl (fun t i => Tab.set t (p.1 / 2 ^ 16 + i) ()) t) []
  (units.flatMap fun u => (List.range 1024).map fun i => 1024 * u.1 + i).filter fun ln =>
    (pages.filter fun p => decide (p.1 ≤ 64 * ln) && decide (64 * ln < p.1 + p.2.1)).all fun p => p.2.2 != s.lineTag ln

/-- A sweep of a group: correctable sectors are rewritten corrected and counted; uncorrectable sectors that are not marked, and
lines with failing tags, are counted and entered. -/
def State.sweep (s : State) (g : Nat) : State :=
  let s := s.correct (s.ce.filter fun x => groupOf (32 * x) == g)
  let ue := s.ue.filter fun x => groupOf (32 * x) == g && (s.physMark x).isNone
  let tags := s.badTags g
  let h := ue.foldl (fun h x => h.find x false) (s.hub.countUp 1 ue.length)
  { s with hub := tags.foldl (fun h x => h.find (2 * x) true) (h.countUp 2 tags.length) }

/-- SCRUB_SWEEP (R238). -/
def execScrubSweep (g : Nat) (s : State) : Out :=
  let p := s.pan g
  if p.scrubOwed && p.st == .active then .next ((s.sweep g).modPan g fun p => { p with scrubOwed := false }) else .next s

/-- PATROL_SCRUB (14 R371, R238): once per interval of hours. -/
def execPatrolScrub (s : State) : Out :=
  if s.hub.time < s.hub.nextScrub then .next s
  else
    let s := { s with hub := { s.hub with
      nextScrub := s.hub.time + s.hub.scrubInterval * 3600 * 1000000 * Config.cyclesPerUs } }
    .next ((List.range Config.groups).foldl (fun s g =>
      let p := s.pan g
      if p.st == .active || p.st == .idle then (if p.alloc then s.sweep g else s)
      else s.modPan g fun p => { p with scrubOwed := true }) s)

/-! ## The origin log (14 R364-R367) -/

/-- The header of a context's log (R364). -/
def Ctx.logHeader (c : Ctx) : List Byte :=
  leBytes 2 c.next ++ leBytes 2 0 ++ leBytes 4 c.ovf ++ leBytes 4 c.miss ++ leBytes 4 c.san ++ leBytes 8 c.lastTime ++ leBytes 40 0

/-- The log's header as the host reads it. A write that finds no translation is dropped. -/
def State.flushHeader (s : State) (ctx : Nat) : State :=
  match s.hubWrite ctx (s.context ctx).logaddr.toNat (s.context ctx).logHeader with
  | .ok (t, _) => t
  | .error _ => s

/-- ORIGIN_ENTRY_FILL (R367): the oldest entry that is still to be filled, and the headers. -/
def execOriginEntryFill (s : State) : Out :=
  match s.fills with
  | [] => .next (((List.range 64).filter fun c => (s.context c).en).foldl State.flushHeader s)
  | f :: rest =>
    match s.hubWrite f.ctx ((s.context f.ctx).logaddr.toNat + 64 * f.idx.toNat) f.bytes with
    | .ok (t, false) => .next t
    | .ok (t, true) =>
      .next (({ t with fills := rest }.modCtx f.ctx fun c => { c with lastTime := s.hub.time }).flushHeader f.ctx)
    | .error _ => .next { s with fills := rest }

/-- A block of 16 ascending indices taken from NEXT, as far as the log has them. -/
def State.takeBlock (s : State) (ctx : Nat) : List Origin × State :=
  let n := (s.context ctx).next
  let m := min 16 (0x7FFF - n)
  ((List.range m).map fun i => BitVec.ofNat 15 (n + i), s.modCtx ctx fun c => { c with next := n + m })

/-- ORIGIN_RESERVATION_REFILL (R366): of core c for a context of a kernel on it, or from 256 on of a die for a context. -/
def execOriginReservationRefill (c : Nat) (s : State) : Out :=
  if c < 256 then
    match s.kerns.find? fun k => k.core == c && decide (((s.core c).resvOf k.ctx).length ≤ 8) with
    | none => .next s
    | some k =>
      let (b, s) := s.takeBlock k.ctx
      .next ((s.modCore c fun x => x.setResv k.ctx (x.resvOf k.ctx ++ b)).flushHeader k.ctx)
  else
    let key := c - 256
    let old := Tab.get [] s.hub.dieResv key
    if 4 * 64 ≤ key ∨ 8 < old.length ∨ (s.context (key % 64)).en = false then .next s
    else
      let (b, s) := s.takeBlock (key % 64)
      .next (({ s with hub := { s.hub with dieResv := Tab.put [] s.hub.dieResv key (old ++ b) } }).flushHeader (key % 64))

end Sys2Proof.Machine
end

