-- ==== Sys2Proof/Machine/Place.lean ====
section
/-! DEFINITION. Gangs are placed, start and end (01 R13, R14, R19, R20; 15 R391-R394, R438). Where a gang goes is the
front-end's decision (01 R13): the event carries it, and takes effect only where the rules allow it. -/

namespace Sys2Proof.Machine

/-! ## Reading for the hub -/

/-- A field of n bytes in a list of bytes. -/
def field (l : List Byte) (off n : Nat) : Nat := leNat ((l.drop off).take n)

/-- The hub reads pieces, each within a line: the address and kind of a fault; or the bytes once all their groups serve it. -/
def State.hubReadAll (s : State) (ctx : Nat) : List (Nat × Nat × Nat) → Except (Nat × Nat) (State × Option (List CByte))
  | [] => .ok (s, some [])
  | p :: ps =>
    match s.hubRead ctx p.2.1 p.2.2 with
    | .error e => .error (p.2.1, e)
    | .ok (s, none) => .ok (s, none)
    | .ok (s, some l) =>
      match s.hubReadAll ctx ps with
      | .error e => .error e
      | .ok (s, none) => .ok (s, none)
      | .ok (s, some r) => .ok (s, some (l ++ r))

/-- The hub reads n bytes from an address. -/
def State.hubRange (s : State) (ctx va n : Nat) : Except (Nat × Nat) (State × Option (List CByte)) :=
  s.hubReadAll ctx (cutPieces 64 (n / 64 + 2) 0 va n)

/-- The hub reads several ranges of a context, one after the other. -/
def State.hubRanges (s : State) (ctx : Nat) : List (Nat × Nat) → Except (Nat × Nat) (State × Option (List (List CByte)))
  | [] => .ok (s, some [])
  | p :: ps =>
    match s.hubRange ctx p.1 p.2 with
    | .error e => .error e
    | .ok (s, none) => .ok (s, none)
    | .ok (s, some l) =>
      match s.hubRanges ctx ps with
      | .error e => .error e
      | .ok (s, none) => .ok (s, none)
      | .ok (s, some r) => .ok (s, some (l :: r))

/-! ## Code objects (R403, R438) -/

/-- A part of an object: its offset and its length; 0 H0, 1 H1, 2 RES, 3 INIT, 4 DATA, 5 RELOC, 6 ULIF. -/
def Obj.part (o : Obj) (i : Nat) : Nat × Nat := (field o.header (32 + 8 * i) 4, field o.header (36 + 8 * i) 4)

/-- A kernel's entry of the kernel table. -/
def Obj.kernel (o : Obj) (i : Nat) : List Byte := (o.ktab.drop (64 * i)).take 64

/-- The entry address of a kernel. -/
def Obj.entry (o : Obj) (i : Nat) : BitVec 11 := BitVec.ofNat 11 (field (o.kernel i) 0 2)

/-- A packed image as bundles from an address (03 R56, R57); it ends as an EXPAND transfer does: with the image, at a header
that does not pack, or at a marked sector. -/
def unpackImage : Nat → Nat → List CByte → Tab (BitVec 512)
  | 0, _, _ => []
  | fuel + 1, a, l =>
    let h := BitVec.ofNat 32 (leNat ((l.take 4).map (·.b)))
    let n := packedLen h
    if l.length < 4 ∨ 10 ≤ hdrNlit h ∨ l.length < n ∨ (l.take n).any (fun b => b.mark.isSome) = true then []
    else
      let b := unpackBundle ((l.take n).map (·.b))
      let rest := unpackImage fuel (a + 1) (l.drop n)
      if b = 0 then rest else (a, b) :: rest

/-- The initialisers of a kernel applied, in record order, to its tensor table and format registers (R438). -/
def applyInits : List (List Byte) → Tab (BitVec 512) → Tab (BitVec 32) → Tab (BitVec 512) × Tab (BitVec 32)
  | [], t, f => (t, f)
  | r :: rs, t, f =>
    if field r 0 1 = 0 then applyInits rs (Tab.put 0 t (field r 1 1) (BitVec.ofNat 512 (field r 8 64))) f
    else applyInits rs t (Tab.put 0x0020_0000 f (field r 1 1) (BitVec.ofNat 32 (field r 8 4)))

/-- A list cut into records of 72 bytes. -/
def records : Nat → List Byte → List (List Byte)
  | 0, _ => []
  | n + 1, l => l.take 72 :: records n (l.drop 72)

/-! ## Room (R393) -/

/-- Ranges, as start and length, do not meet. -/
def apart : List (Nat × Nat) → Bool
  | [] => true
  | a :: t => (t.all fun b => decide (a.1 + a.2 ≤ b.1) || decide (b.1 + b.2 ≤ a.1)) && apart t

/-- Ranges lie below a size and apart. -/
def fits (size : Nat) (l : List (Nat × Nat)) : Bool := (l.all fun a => decide (a.1 + a.2 ≤ size)) && apart l

/-- The demand of a launch on XS in half banks: a resilient one counts its rollback area of 64 KiB (14 R374). -/
def Launch.xsHalves (x : Launch) : Nat := 2 * x.res.xs + (if x.resil then 1 else 0)

/-- A resident as the room check sees it. -/
abbrev Tenant := Launch × DPlace

/-- The partitions and save areas fit as contiguous ranges. -/
def rangesFit (l : List Tenant) : Bool :=
  fits 128 (l.flatMap fun t => (t.2.ab, t.1.res.ab / 4) :: (match t.2.save with | some a => [(a, 9)] | none => []))
    && fits 512 (l.map fun t => (t.2.ws, t.1.res.ws)) && fits 16 (l.map fun t => (t.2.xs, t.1.res.xs))
    && fits 4 (l.map fun t => (t.2.ns, t.1.res.ns / 64))

/-- The rules of co-residency, the newcomer included. -/
def mayShare (l : List Tenant) : Bool :=
  let sum := fun (f : Launch → Nat) => (l.map fun t => f t.1).foldl (· + ·) 0
  (l.all fun t => (match l with | h :: _ => t.1.obj == h.1.obj | [] => true) && !t.1.isw && decide (t.1.res.ab ≤ 476) && t.2.save.isSome)
    && decide (l.length ≤ 4)
    && decide (sum (fun x => x.res.ab + 36) ≤ 512) && decide (sum Launch.xsHalves ≤ 32) && decide (sum (fun x => x.res.ws) ≤ 512)
    && decide (sum (fun x => x.res.ns) ≤ 256) && decide (sum (fun x => x.res.tdt) ≤ 256) && decide (sum (fun x => x.res.st) ≤ 8)
    && decide (sum (fun x => x.res.copy) ≤ 4) && decide ((l.filter fun t => t.1.res.ns == 256).length ≤ 1)

/-! ## The choice (01 R13, R14) -/

/-- One domain of a placement: its die, cores by linear index, sync line and partitions; a resident domain that gets its save
area now; whether the site is new. -/
structure Plan where
  die : Nat
  cores : List Nat
  line : Nat
  place : DPlace
  peer : Option (Nat × Nat)
  fresh : Bool
  deriving DecidableEq, Repr, Inhabited

/-- The place of a site in the table: the number of its first core. -/
def Plan.site (p : Plan) : Nat := p.cores.headD 0

/-- A launch. -/
def State.launch? (s : State) (l : Nat) : Option Launch := Tab.get? s.launches l

/-- The state with one launch changed. -/
def State.modLaunch (s : State) (l : Nat) (f : Launch → Launch) : State :=
  match s.launch? l with
  | some x => { s with launches := Tab.set s.launches l (f x) }
  | none => s

/-- The cores of a gang on chosen clusters (01 R13). -/
def gangCores (cl : List Nat) (n : Nat) : List Nat := (List.range n).map fun i => cl.getD (i / 8) 0 * 8 + i % 8

/-- The least free sync line of a die (log 61: DESIGN CHOICE, the front-end's choice among the free ones is its own). -/
def State.freeLine (s : State) (die : Nat) : Option Nat :=
  (List.range 16).find? fun n => !s.doms.any fun d => d.2.die == die && d.2.line == n

/-- The cores of a domain. -/
def State.domCores (s : State) (d : Nat) : List Nat := (s.kerns.filter fun k => k.dom == d).map (·.core)

/-- No kernel has a place in the cluster of a core. -/
def State.clusterFree (s : State) (c : Nat) : Bool := !s.kerns.any fun k => k.core / 8 == c / 8

/-- The residents of a site. -/
def State.tenants (s : State) (site : Nat) : List (Nat × Tenant) :=
  match s.site? site with
  | none => []
  | some t => t.doms.filterMap fun d =>
      match s.dom? d with
      | some x => (s.launch? x.launch).map fun l => (d, l, x.place)
      | none => none

/-- One domain's plan with its six numbers: AB, WS, XS, NS, its save area, and that of a resident that has none. -/
def State.plan (s : State) (x : Launch) (cores : List Nat) (n : List Nat) : Option Plan :=
  let die := cores.headD 0 / 64
  match s.freeLine die with
  | none => none
  | some line =>
    let at_ : DPlace := ⟨n.getD 0 0, n.getD 1 0, n.getD 2 0, n.getD 3 0, none⟩
    if cores.all s.clusterFree then
      if rangesFit [(x, at_)] then some ⟨die, cores, line, at_, none, true⟩ else none
    else
      let at_ := { at_ with save := some (n.getD 4 0) }
      let site := cores.headD 0
      let old := s.tenants site
      let bare := (old.filter fun t => t.2.2.save.isNone).map (·.1)
      let all := (old.map fun t => (t.2.1, match t.2.2.save with | some _ => t.2.2 | none => { t.2.2 with save := some (n.getD 5 0) })) ++ [(x, at_)]
      let same := match old with | t :: _ => s.domCores t.1 == cores | [] => false
      if same && decide (bare.length ≤ 1) && mayShare all && rangesFit all then
        some ⟨die, cores, line, at_, bare.head?.map fun d => (d, n.getD 5 0), false⟩
      else none

/-- The plans of the domains, in die order. -/
def State.plansFor (s : State) (x : Launch) : List (List Nat) → List Nat → Option (List Plan)
  | [], _ => some []
  | c :: cs, n =>
    match s.plan x c (n.take 6), s.plansFor x cs (n.drop 6) with
    | some p, some ps => some (p :: ps)
    | _, _ => none

/-- Strictly rising. -/
def rising : List Nat → Bool
  | a :: b :: t => decide (a < b) && rising (b :: t)
  | _ => true

/-- The domains' cores of a gang. -/
def byDie (cores : List Nat) : List (List Nat) :=
  ((List.range 4).map fun d => cores.filter fun c => c / 64 == d).filter fun l => !l.isEmpty

/-- What a choice makes of a launch: clusters in rising order, none withdrawn from service (14 R384), all of them free or all
of them sites. -/
def State.plans (s : State) (x : Launch) (ch : List Nat) : Option (List Plan) :=
  let n := x.gs * x.gq
  let k := ceilDiv n 8
  let cl := ch.take k
  if cl.length ≠ k ∨ rising cl = false ∨ (cl.any fun c => 32 ≤ c || s.hub.outOfService.any fun r => r / 8 == c) = true then none
  else
    match s.plansFor x (byDie (gangCores cl n)) (ch.drop k) with
    | some ps => if (ps.all (·.fresh)) || (ps.all fun p => !p.fresh) then some ps else none
    | none => none

/-- An earlier launch of the same queue still waits for a place. -/
def State.behind (s : State) (l : Nat) (x : Launch) : Bool :=
  s.launches.any fun e => decide (e.1 < l) && e.2.q == x.q && (e.2.st == .waiting || e.2.st == .saved)

/-! ## Settling in -/

/-- A core's instruction store as its first kernel finds it. -/
def Core.clean (c : Core) : Core := { c with is := [], isUe := [], isCe := [], resv := [], old := [] }

/-- The domain table, the sites and the sync lines with a plan's domain. -/
def State.settle (s : State) (l : Nat) (p : Plan) (x : Dom) : State :=
  let d := l * 4 + p.die
  let s := { s with doms := Tab.set s.doms d { x with die := p.die, line := p.line, site := p.site, place := p.place } }
  let s := match p.peer with
    | some (e, a) => s.modDom e fun y => { y with place := { y.place with save := some a } }
    | none => s
  if p.fresh then { s with sites := Tab.set s.sites p.site ⟨[d], none, 2 ^ 20, 0, none⟩ }
  else s.modSite p.site fun t => { t with doms := t.doms ++ [d] }

/-- A domain before its first issue. -/
def Dom.new (l q yfirst : Nat) : Dom :=
  ⟨l, 0, 0, 0, q, 0, false, none, none, none, 0, false, false, false, false, yfirst, 0, 0, false, ⟨0, 0, 0, 0, none⟩, none, false⟩

/-- What the placement reads: the images, which the first kernel at a site writes, and the initialisers (R394, R438). -/
def placeReads (x : Launch) (o : Obj) (first : Bool) : List (Nat × Nat) :=
  let at_ := fun i => (o.objaddr + (o.part i).1, (o.part i).2)
  let e := o.kernel x.kidx
  (if first then [at_ 0, at_ 1, at_ 2] else [(o.objaddr, 0), (o.objaddr, 0), (o.objaddr, 0)]) ++ [(o.objaddr + (o.part 3).1 + 72 * field e 2 2, 72 * field e 4 2)]

/-- The bundles that a placement writes; what an image holds beyond its region is left out (log 62: the model's choice). -/
def imagesOf (l : List (List CByte)) : Tab (BitVec 512) :=
  unpackImage 960 0 (l.getD 0 []) ++ unpackImage 960 0x3C0 (l.getD 1 []) ++ unpackImage 128 0x780 (l.getD 2 [])

/-- One kernel of a gang takes its core: zero-filled buffers, the initialisers, the arguments at AB 0. -/
def State.placeKern (s : State) (l n core : Nat) (x : Launch) (o : Obj) (args : List CByte) (inits : List (List Byte)) : State :=
  let k := Kern.fresh l n core x.ctx x.gs x.gq x.res x.isw x.resil x.pstore (o.entry x.kidx)
  let (t, f) := applyInits inits [] []
  let k := { k with tdt := t, fmts := f, spr := { k.spr with bwphase := (s.context x.ctx).bwphase } }
  ({ s with kerns := s.kerns ++ [k] }).writeBufs k.kid (.kern k.kid 7 0 0) (bufferWrites .ab 0 args []).1

/-- The gang's places are taken. -/
def State.takePlaces (s : State) (l : Nat) (x : Launch) (ps : List Plan) : State :=
  ps.foldl (fun s p => s.settle l p (Dom.new l x.q x.yfirst)) s

/-- GANG_PLACEMENT (R393; 01 R19 steps 5 to 7): launch l is placed as the choice says. -/
def execGangPlacement (l : Nat) (ch : List Nat) (s : State) : Out :=
  match s.launch? l with
  | none => .next s
  | some x =>
    match (if x.st == .waiting && !s.behind l x && !s.heldBy (.placement l) then s.plans x ch else none) with
    | none => .next s
    | some ps =>
      let o := Tab.get default s.objs x.obj
      let first := ps.all (·.fresh)
      match s.hubRange x.ctx x.argaddr x.argsize with
      | .error e => .next (s.replayable (.placement l) x.ctx e.1 e.2)
      | .ok (s, none) => .next s
      | .ok (s, some args) =>
        match s.hubRanges o.ctx (placeReads x o first) with
        | .error e => .next (s.replayable (.placement l) o.ctx e.1 e.2)
        | .ok (s, none) => .next s
        | .ok (s, some parts) =>
          let img := imagesOf parts
          let e := o.kernel x.kidx
          let inits := records (field e 4 2) ((parts.getD 3 []).map (·.b))
          let cores := ps.flatMap (·.cores)
          let s := cores.foldl (fun s c => s.modCore c fun y =>
            let y := if first then y.clean else y
            { y with is := img.foldl (fun t b => Tab.set t b.1 b.2) y.is }) s
          let s := s.takePlaces l x ps
          let s := ((List.range cores.length).zip cores).foldl (fun s e => s.placeKern l e.1 e.2 x o args inits) s
          .next (s.modLaunch l fun y => { y with st := .placed, cores := cores, placedAt := s.hub.time })

/-! ## Starting and ending -/

/-- Every domain of a launch has started. -/
def State.allStarted (s : State) (l : Nat) : Bool := s.doms.all fun d => d.2.launch != l || d.2.started

/-- A core of a domain has been withdrawn from service (14 R384). -/
def State.onRetired (s : State) (d : Nat) : Bool := (s.domCores d).any fun c => (s.core c).retired

/-- DOMAIN_START (01 R19 step 8): 256 cycles after its placement, with DCYC 0; it runs at once where nothing else runs at its
site. -/
def execDomainStart (d : Nat) (s : State) : Out :=
  match s.dom? d with
  | none => .next s
  | some x =>
    match s.launch? x.launch with
    | none => .next s
    | some l =>
      if x.started || l.st != .placed || x.preempt || s.onRetired d || decide (s.hub.time < l.placedAt + 256) then .next s
      else
        let s := s.modDom d fun y => { y with started := true, dcyc := 0, ran := 0 }
        let s := s.modSite x.site fun t => if t.running.isNone && t.chosen.isNone && t.switch == 0 then { t with running := some d } else t
        .next (if s.allStarted x.launch then s.modLaunch x.launch fun y => { y with st := .running } else s)

/-- The domains of a launch leave their sites; the cores of a site that empties lose their instruction stores (R201). -/
def State.vacate (s : State) (l : Nat) : State :=
  let mine := s.doms.filter fun d => d.2.launch == l
  let s := { s with
    kerns := s.kerns.filter fun k => k.launch != l
    doms := s.doms.filter fun d => d.2.launch != l }
  mine.foldl (fun s d =>
    match s.site? d.2.site with
    | none => s
    | some t =>
      let t := { t with
        doms := t.doms.filter (· != d.1)
        running := if t.running = some d.1 then none else t.running
        chosen := if t.chosen = some d.1 then none else t.chosen }
      { s with sites := if t.doms.isEmpty then s.sites.erase d.2.site else Tab.set s.sites d.2.site t }) s

/-- The cores that no kernel holds any more are clean. -/
def State.cleanCores (s : State) (cores : List Nat) : State :=
  cores.foldl (fun s c => if s.kerns.any (fun k => k.core == c) then s else s.modCore c Core.clean) s

/-- A kernel has nothing left to do: halted, landed, its segment committed, its accesses performed, its operations completed
(01 R20; 13 R351). -/
def State.kernEnded (s : State) (k : Kern) : Bool :=
  k.ctl.halted && k.landed && k.seg.isNone && ((s.core k.core).port.all fun x => x.kid != k.kid)
    && (List.range 7).all fun e => (k.port e).q.isEmpty

/-- The packet of a launch is to complete. -/
def State.endPacket (s : State) (q l status detail : Nat) : State :=
  s.modQueue q fun y => { y with cur := y.cur.map fun r => if r.launch = some l then { r with phase := .done status detail 0 } else r }

/-- LAUNCH_END (01 R20), once the host can see its origin entries (14 R367). -/
def execLaunchEnd (l : Nat) (s : State) : Out :=
  match s.launch? l with
  | none => .next s
  | some x =>
    if (x.st == .running || x.st == .stopping) && (s.kerns.all fun k => k.launch != l || s.kernEnded k)
        && s.fills.all (fun f => f.ctx != x.ctx) then
      let s := (s.vacate l).cleanCores x.cores
      let s := { s with launches := s.launches.erase l, hub := { s.hub with victims := s.hub.victims.filter (· != l) } }
      .next (s.endPacket x.q l 0 0)
    else .next s

end Sys2Proof.Machine
end

