-- ==== Sys2Proof/Machine/Sched.lean ====
section
/-! DEFINITION. The sites' decisions, overruns, full pre-emption, hard stops and the power arbiter (06 R155, R167-R169; 14 R380;
15 R395-R399; 16 R416). -/

namespace Sys2Proof.Machine

/-! ## Leaving and resuming (R395; 06 R155, R169) -/

/-- A load generator drops the pops fetched ahead; it refetches from its position on resumption (08 R218). -/
def Stream.rewound (x : Stream) (cyc : Nat) : Stream := if x.isStore then x else { x with pops := [], ahead := none, start := cyc - x.pos }

/-- A kernel as it resumes after a yield switch or a stop: at its program counter, its latches invalid, its generators at their
positions; with resilience on a segment opens (14 R374). TCAUSE of one that was pre-empted holds PREEMPT (14 R355). -/
def Kern.resumed (k : Kern) : Kern :=
  let moved := k.ctl.stopped || (match k.ctl.wait with | .yield _ => true | _ => false)
  let k := { k with streams := k.streams.map fun e => (e.1, e.2.rewound k.cyc) }
  if moved then
    { k.groupSwitch with
      spr := if k.ctl.stopped then { k.spr with tcause := 0x31 } else k.spr
      ctl := { k.ctl with
        stopped := false
        wait := match k.ctl.wait with | .yield _ => .none | w => w
        gap := 0
        segDue := if k.resil then some (k.ctl.segDue.getD false) else k.ctl.segDue } }
  else k

/-- A domain made ready to resume: after a YIELD with the window flag clear; after a stop with the flag set where its cores did
not stop at one DCYC (06 R153, R155). -/
def Dom.resumed (x : Dom) : Dom :=
  { x with
    broken := if x.restart.isSome then false else x.broken || x.stagger
    restart := none, preempt := x.full, overran := false, stopAt := none, stagger := false, ran := 0 }

/-- Kernels that full pre-emption finds switched out, or not started, stand stopped where they are. -/
def Kern.stand (k : Kern) : Kern := { k with ctl := { k.ctl with stopped := !k.ctl.halted } }

/-- A domain is switched out: its state is as it will resume. -/
def State.switchOut (s : State) (d : Nat) : State :=
  let full := match s.dom? d with | some x => x.full | none => false
  let s := { s with kerns := s.kerns.map fun (k : Kern) =>
    if k.dom = d then (if full then k.resumed.stand else k.resumed) else k }
  s.modDom d Dom.resumed

/-- Nothing of a domain's cores is in flight, and no segment is open (R395; 14 R374; 08 R205). -/
def State.drained (s : State) (d : Nat) : Bool :=
  s.kerns.all fun k => k.dom != d || (k.landed && !k.anyWaking && k.seg.isNone)

/-! ## Decisions (R396-R398) -/

/-- A domain among which a site chooses: its effective rank, whether it loses ties, whether it yielded, its run of decisions
passed over, its queue, its declared run. -/
structure Cand where
  d : Nat
  rank : Nat
  last : Bool
  yielded : Bool
  passed : Nat
  q : Nat
  declared : Nat
  deriving DecidableEq, Repr, Inhabited

/-- The order of choice. -/
def Cand.before (a b : Cand) : Bool :=
  if a.rank ≠ b.rank then decide (a.rank < b.rank)
  else if a.last ≠ b.last then b.last
  else if a.yielded ≠ b.yielded then a.yielded
  else if a.passed ≠ b.passed then decide (b.passed < a.passed)
  else decide (a.q < b.q)

/-- The candidate that is chosen. -/
def bestOf : List Cand → Option Cand
  | [] => none
  | c :: t => match bestOf t with | some b => if b.before c then some b else some c | none => some c

/-- Every core of a domain has halted. -/
def State.allHalted (s : State) (d : Nat) : Bool := s.kerns.all fun k => k.dom != d || k.ctl.halted

/-- A domain is ready: started, not ended, not held by a debugger, not being saved (R397), on no core that is retired (14 R384). -/
def State.ready (s : State) (d : Nat) : Bool :=
  match s.dom? d with
  | none => false
  | some x => x.started && !x.hard && !s.debugStopped d && !s.allHalted d && !s.onRetired d
      && !(x.full && s.kerns.all fun k => k.dom != d || k.ctl.stopped || k.ctl.halted)

/-- The candidates of a site among its ready domains. -/
def State.cands (s : State) (t : Site) (cur : Option Nat) (ovr : Bool) : List Cand :=
  (t.doms.filter s.ready).filterMap fun d => (s.dom? d).map fun x =>
    ⟨d, (s.queue x.q).rank - x.passed / 8, ovr && cur == some d, !ovr && cur == some d, x.passed, x.q, x.declared⟩

/-- A decision of R397. `cur` is the domain that yielded or overran. A domain that goes on does so at once; another is switched in
once the running one has been saved. -/
def State.siteDecide (s : State) (i : Nat) (t : Site) (cur : Option Nat) (ovr : Bool) : State :=
  let all := s.cands t cur ovr
  let fit := all.filter fun c => decide (c.declared ≤ t.slice)
  match bestOf (if fit.isEmpty then all else fit) with
  | none => s
  | some c =>
    let s := if fit.isEmpty then s.modSite i fun t => { t with slice := 2 ^ 20 } else s
    let s := all.foldl (fun s x => s.modDom x.d fun y => { y with passed := if x.d = c.d then 0 else y.passed + 1 }) s
    if cur = some c.d then
      if ovr then s.switchOut c.d
      else (s.restartDomain c.d).modDom c.d fun y => { y with ran := 0, overran := false, preempt := y.full }
    else s.modSite i fun t => { t with chosen := some c.d }

/-- The cycles that the YIELD of a domain declared: those of its first core. -/
def State.yieldCycles (s : State) (d : Nat) : Option Nat :=
  s.kerns.findSome? fun k => if k.dom = d then (match k.ctl.wait with | .yield n => some n | _ => none) else none

/-- The switch itself: 160 cycles. -/
def State.switchTo (s : State) (i e : Nat) (out : Option Nat) : State :=
  let s := match out with | some d => s.switchOut d | none => s
  (s.modSite i fun t => { t with running := some e, chosen := none, switch := 160 }).modDom e fun y => { y with ran := 0 }

/-- What a site can do in a state: switch to the domain it has chosen; or decide. -/
inductive SiteAct where
  | nothing
  | forget
  | switch (e : Nat) (out : Option Nat)
  | judge (cur : Option Nat) (ovr : Bool)
  deriving DecidableEq, Repr, Inhabited

/-- An overrun domain stands at its pre-emption point, saved. -/
def State.overrunStopped (s : State) (d : Nat) (x : Dom) : Bool := x.overran && !x.full && s.parked d x && s.drained d

/-- The act of a site (R397, R398). -/
def State.siteAct (s : State) (t : Site) : SiteAct :=
  if t.switch ≠ 0 then .nothing
  else
    match t.chosen with
    | some e =>
      if (s.dom? e).isNone || s.onRetired e then .forget
      else match t.running with
        | some d => if s.drained d then .switch e (some d) else .nothing
        | none => .switch e none
    | none =>
      match t.running with
      | none => if (t.doms.filter s.ready).isEmpty then .nothing else .judge none false
      | some d =>
        match s.dom? d with
        | none => .nothing
        | some x =>
          if s.allHalted d then (if (t.doms.filter s.ready).isEmpty then .nothing else .judge none false)
          else if s.overrunStopped d x then .judge (some d) true
          else if x.restartDue && s.domRuns d && !x.frozen && s.anyYield d then .judge (some d) false
          else .nothing

/-- YIELD_DECISION (R397; 06 R155). -/
def execYieldDecision (site : Nat) (s : State) : Out :=
  match s.site? site with
  | none => .next s
  | some t =>
    match s.siteAct t with
    | .nothing => .next s
    | .forget => .next (s.modSite site fun t => { t with chosen := none })
    | .switch e out => .next (s.switchTo site e out)
    | .judge cur ovr =>
      let s := match (if ovr then none else cur) with
        | some d => s.modDom d fun x => { x with declared := (s.yieldCycles d).getD x.declared }
        | none => s
      .next (s.siteDecide site t cur ovr)

/-- A running domain has overrun (R398). -/
def State.overruns (s : State) (d : Nat) (x : Dom) : Bool :=
  s.domRuns d && !x.overran && decide (2 * x.declared + 4096 < x.ran)

/-- OVERRUN (R398). -/
def execOverrun (d : Nat) (s : State) : Out :=
  match s.dom? d with
  | none => .next s
  | some x =>
    if s.overruns d x then
      let c := match s.launch? x.launch with | some l => l.ctx | none => 0
      let s := s.modDom d fun y => { y with overran := true, preempt := true }
      .next { s with out := s.out ++ [.event 0x03 c x.q 0 []] }
    else .next s

/-! ## Full pre-emption (R399; 06 R169; 14 R384) -/

/-- Starts for ranges of some lengths, one after the other, that leave them and the ranges there apart below a size: each at the
bottom or against a range below it. -/
def packRanges (size : Nat) : List Nat → List (Nat × Nat) → Option (List Nat)
  | [], _ => some []
  | n :: ns, l =>
    (0 :: l.map fun a => a.1 + a.2).findSome? fun a =>
      if fits size ((a, n) :: l) then (packRanges size ns ((a, n) :: l)).map (a :: ·) else none

/-- Starts for a partition of AB, its save area, and that of a resident that has none, in whichever order they fit. -/
def packAb (n : Nat) (peer : Bool) (l : List (Nat × Nat)) : Option (Nat × Nat × Nat) :=
  let m := if peer then 9 else 0
  let get := fun (o : List Nat) (i j k : Nat) => (packRanges 128 o l).map fun r => (r.getD i 0, r.getD j 0, r.getD k 0)
  (get [n, 9, m] 0 1 2).orElse fun _ => (get [9, n, m] 1 0 2).orElse fun _ => get [9, m, n] 2 0 1

/-- The six numbers with which a launch fits beside the residents of a site (R393). -/
def State.siteNumbers (s : State) (x : Launch) (site : Nat) : Option (List Nat) :=
  let old := (s.tenants site).map (·.2)
  let ab := old.flatMap fun t => (t.2.ab, t.1.res.ab / 4) :: (match t.2.save with | some a => [(a, 9)] | none => [])
  match packAb (x.res.ab / 4) (old.any fun t => t.2.save.isNone) ab, packRanges 512 [x.res.ws] (old.map fun t => (t.2.ws, t.1.res.ws)),
      packRanges 16 [x.res.xs] (old.map fun t => (t.2.xs, t.1.res.xs)), packRanges 4 [x.res.ns / 64] (old.map fun t => (t.2.ns, t.1.res.ns / 64)) with
  | some (a, sv, pv), some w, some b, some n => some [a, w.headD 0, b.headD 0, n.headD 0, sv, pv]
  | _, _, _, _ => none

/-- The sites of a die at which a launch fits: their clusters, and its numbers. -/
def State.siteChoices (s : State) (x : Launch) (die : Nat) : List (List Nat × List Nat) :=
  s.sites.filterMap fun e =>
    if e.1 / 64 ≠ die then none
    else match (s.site? e.1).bind (·.doms.head?), s.siteNumbers x e.1 with
      | some d, some n => some (dedup ((s.domCores d).map (· / 8)), n)
      | _, _ => none

/-- At most one site of each die, in die order: the clusters and the numbers together. -/
def siteCombos : List (List (List Nat × List Nat)) → List (List Nat × List Nat)
  | [] => [([], [])]
  | c :: cs =>
    let r := siteCombos cs
    r ++ c.flatMap fun a => r.map fun b => (a.1 ++ b.1, a.2 ++ b.2)

/-- The clusters that a launch may take free: in service, empty, on a die with a free sync line (R393). -/
def State.freeClusters (s : State) : List Nat :=
  (List.range 32).filter fun c =>
    !(s.hub.outOfService.any fun r => r / 8 == c) && s.clusterFree (8 * c) && (s.freeLine (c / 8)).isSome

/-- The sizes of the domains of a gang. -/
def domSizes (l : List Nat) : List Nat := (byDie l).map List.length

/-- Free clusters for domains of some sizes, one to a die, in die order: the first of each die. -/
def dieChoices (free : List Nat) : List Nat → List Nat → List (List Nat)
  | [], _ => [[]]
  | _ :: _, [] => []
  | n :: ns, d :: ds =>
    let here := (free.filter fun c => c / 8 == d).take (ceilDiv n 8)
    (if here.length = ceilDiv n 8 then (dieChoices free ns ds).map (here ++ ·) else []) ++ dieChoices free (n :: ns) ds

/-- Choices of free clusters: the first of all; for a saved launch, whose domains stay as they were, each die's first (R393, R399). -/
def State.freeChoices (s : State) (x : Launch) : List (List Nat) :=
  if x.st = .saved then dieChoices s.freeClusters (domSizes (x.saved.map (·.core))) [0, 1, 2, 3]
  else [s.freeClusters.take (ceilDiv (x.gs * x.gq) 8)]

/-- Choices for a launch, of which one places it if any choice does: free clusters, or sites with room (R393). -/
def State.roomChoices (s : State) (x : Launch) : List (List Nat) :=
  s.freeChoices x ++ (siteCombos ((List.range 4).map (s.siteChoices x))).map fun c => c.1 ++ c.2

/-- A choice places a launch; a saved one in domains as they were. -/
def State.placesBy (s : State) (x : Launch) (ch : List Nat) : Bool :=
  match s.plans x ch with
  | none => false
  | some ps => x.st != .saved
      || (domSizes (ps.flatMap (·.cores)) == domSizes (x.saved.map (·.core)) && ps.length == x.savedDoms.length)

/-- A placement exists for a launch without some others (R393). -/
def State.hasRoom (s : State) (x : Launch) (without : List Nat) : Bool :=
  let t := without.foldl State.vacate s
  (t.roomChoices x).any (t.placesBy x)

/-- With some launches gone a placement exists that takes room which launch v holds: a cluster that is free without it, or a choice
that is none beside it (R399). -/
def State.holdsRoom (s : State) (x : Launch) (low : List Nat) (v : Nat) : Bool :=
  let t := low.foldl State.vacate s
  let u := (low.filter (· != v)).foldl State.vacate s
  ((t.freeChoices x).any (t.placesBy x) && t.freeClusters.any fun c => !u.freeClusters.contains c)
    || (t.roomChoices x).any fun ch => t.placesBy x ch && !u.placesBy x ch

/-- A launch goes before another when room is made: the lower-ranked, then the later placed (R399). -/
def State.goesFirst (s : State) (a b : Nat × Launch) : Bool :=
  let r := fun (e : Nat × Launch) => (s.queue e.2.q).rank
  if r a = r b then decide (b.2.placedAt ≤ a.2.placedAt) else decide (r b < r a)

/-- A launch put among others in the order in which they make room. -/
def State.insertVictim (s : State) (a : Nat × Launch) : List (Nat × Launch) → List (Nat × Launch)
  | [] => [a]
  | b :: t => if s.goesFirst a b then a :: b :: t else b :: s.insertVictim a t

/-- A LAUNCH, a saved one among them, has waited long enough for room that lower-ranked launches hold: the launch to pre-empt,
lowest-ranked first, then latest placed, of those that hold room which it could take (log 68: DEDUCED). -/
def State.preemptFor (s : State) : Option Nat :=
  let resident := s.launches.filter fun e => e.2.st == .running || e.2.st == .placed
  let waits := s.launches.filter fun e => (e.2.st == .waiting || e.2.st == .saved) && !s.behind e.1 e.2
    && decide (e.2.since + s.hub.preemptWait * Config.cyclesPerUs ≤ s.hub.time)
  if s.launches.any fun e => e.2.st == .stopping then none
  else
    waits.findSome? fun w =>
      let r := fun (x : Launch) => (s.queue x.q).rank
      let low := ((resident.filter fun e => decide (r w.2 < r e.2)).foldr s.insertVictim []).map (·.1)
      if s.hasRoom w.2 [] || !s.hasRoom w.2 low then none else low.find? (s.holdsRoom w.2 low)

/-- A launch is to be pre-empted at a TIME 2 us ahead, in every domain (R399 step 1). -/
def State.startPreemption (s : State) (l : Nat) : State :=
  let mine := (s.doms.filter fun d => d.2.launch == l).map (·.1)
  let s := s.modLaunch l fun x => { x with st := .stopping }
  { s with hub := { s.hub with preempts := s.hub.preempts ++ mine.map fun d => (s.hub.time + 1200, d) } }

/-- FULL_PREEMPTION (R399). -/
def execFullPreemption (s : State) : Out :=
  match s.hub.victims with
  | v :: rest =>
    let s := { s with hub := { s.hub with victims := rest } }
    match s.launch? v with
    | some x => if x.st == .running || x.st == .placed then .next (s.startPreemption v) else .next s
    | none => .next s
  | [] =>
    match s.preemptFor with
    | some l => .next (s.startPreemption l)
    | none => .next s

/-- PREEMPTION_REQUEST (06 R169): the first request whose TIME has come. A domain that is switched out, or has not started, stands
stopped as it is. -/
def execPreemptionRequest (s : State) : Out :=
  match s.hub.preempts.find? fun e => decide (e.1 ≤ s.hub.time) with
  | none => .next s
  | some (t, d) =>
    let s := { s with hub := { s.hub with preempts := removeFirst (t, d) s.hub.preempts } }
    match s.dom? d with
    | none => .next s
    | some x =>
      let out := !(x.started && match s.site? x.site with | some t => t.running == some d | none => false)
      let s := s.modDom d fun y => { y with preempt := true, full := true }
      .next (if out then { s with kerns := s.kerns.map fun k => if k.dom = d then k.stand else k } else s)

/-- The engines of a kernel stand where a save may take them: at an innermost iteration, at the end of a step, at a flit boundary or a
save point (09 R242; 11 R311; 12 R330; 16 R415). -/
def State.enginesStand (s : State) (k : Kern) : Bool :=
  !s.circBusy k && ([0, 1, 2, 3, 4, 6].all fun e => (k.port e).runs.all fun r => r.mem.wq.isEmpty && decide (r.cur.acc ≤ s.hub.time))
    && s.lines.all fun l => l.2.all fun e =>
    match e.agent with | .engine k' _ _ => k' != k.kid | _ => true

/-- Every core of a launch stands at its pre-emption point, with its engines and accesses drained (R399 step 2; 13 R352). -/
def State.savable (s : State) (l : Nat) : Bool :=
  let mine := s.doms.filter fun d => d.2.launch == l
  !mine.isEmpty && (mine.all fun d => d.2.preempt && d.2.full && !d.2.hard && s.drained d.1)
    && (s.kerns.filter fun k => k.launch == l).all fun k =>
      (k.ctl.stopped || k.ctl.halted) && !k.ctl.dead && ((s.core k.core).port.all fun x => x.kid != k.kid) && s.enginesStand k

/-- The hub writes n lines of a save area from an address on, the highest first: whether all were made (log 9: the bytes are free
values). -/
def State.saveLines (s : State) (ctx seed va : Nat) : Nat → State × Bool
  | 0 => (s, true)
  | n + 1 =>
    let a := va + 64 * n
    match s.hubWrite ctx a ((List.range 64).map fun i => Config.savedByte seed (a + i)) with
    | .ok (t, true) => t.saveLines ctx seed va n
    | .ok (t, false) => (t, false)
    | .error _ => (s, true)

/-- The hub writes n pieces of 64 KiB, the least page, of a save area; a piece whose page faults is left as it is (log 9). -/
def State.saveArea (s : State) (ctx seed va : Nat) : Nat → State × Bool
  | 0 => (s, true)
  | n + 1 =>
    let a := va + 2 ^ 16 * n
    match s.reachTables ctx a with
    | (s, false) => (s, false)
    | (s, true) =>
      match s.translate ctx a true with
      | .error _ => s.saveArea ctx seed va n
      | .ok _ =>
        match s.saveLines ctx seed a 1024 with
        | (t, true) => t.saveArea ctx seed va n
        | (t, false) => (t, false)

/-- The save area of a launch is written: 4 MiB for each of its cores from SAVEADDR on (R399 step 3; 16 R412). -/
def State.writeSave (s : State) (x : Launch) : State × Bool :=
  let (n, s) := s.choose
  s.saveArea x.ctx n (s.context x.ctx).saveaddr.toNat (64 * (x.gs * x.gq))

/-- A launch leaves its cores, and is saved (R399 step 3). -/
def State.leaveSaved (s : State) (l : Nat) (x : Launch) : State :=
  let mine := s.kerns.filter fun k => k.launch == l
  let doms := (s.doms.filter fun d => d.2.launch == l).map fun d => (d.1, { Dom.resumed d.2 with preempt := false, full := false })
  let is := mine.map fun k => (s.core k.core).is
  ((s.vacate l).cleanCores x.cores).modLaunch l fun y => { y with
    st := .saved, since := s.hub.time, saved := mine.map Kern.resumed, savedDoms := doms, savedIs := is, cores := [] }

/-- CONTEXT_SAVE (R399 step 3): the save area is written, once its pans serve it; then the cores are released. -/
def execContextSave (l : Nat) (s : State) : Out :=
  match s.launch? l with
  | none => .next s
  | some x =>
    if x.st == .stopping && s.savable l then
      match s.writeSave x with
      | (t, true) => .next (t.leaveSaved l x)
      | (t, false) => .next t
    else .next s

/-- A receive of a restored kernel on the die that the kernel now has. -/
def State.recvHere (s : State) (l : Nat) (v : Recv) : Recv :=
  if v.k / 256 = l then (match s.kern? v.k with | some k => { v with die := k.core / 64 } | none => v) else v

/-- The posted receives of the restored kernels stand on their new die; a message that waits there is taken. A receive on a port that is
down brings its context the fault FABRIC (16 R409). -/
def State.repost (s : State) (l : Nat) : State :=
  let s := { s with recvs := s.recvs.map (s.recvHere l) }
  (s.recvs.filter fun v => v.k / 256 == l).foldl (fun s v =>
    let key := portKey v.die v.port
    if (s.lport key).down then s.fabricFault (s.kern v.k).ctx
    else
      match findAt (v.takes key) 0 (s.lport key).landing with
      | some (i, m) => ((s.modLport key fun p => { p with landing := dropAt p.landing i }).linkDeliver v m).flowControl key
      | none => s) s

/-- The section with which a running EVAL goes on from its save point: it is fetched again (11 R311). -/
def Kern.resumesAt (k : Kern) : Option Nat :=
  match k.circP.runs.find? fun r => r.op.code == 0x21 && r.cur.fin.isNone with
  | some r => some (if r.cur.phase = 5 then 0 else r.cur.j)
  | none => none

/-- A frame's record on resumption: none where it holds the section that is to be fetched again. -/
def againFetched (sec : Option Nat) (f : Option Frame) : Option Frame := f.filter fun x => some x.sec != sec

/-- A kernel restored on a core, with what its circuit engine held (11 R311). -/
def Kern.moveTo (k : Kern) (l core : Nat) (bw : BitVec 42) : Kern :=
  { k with
    core := core, dom := l * 4 + core / 64, spr := { k.spr with bwphase := bw }
    circ := { k.circ with
      frame0 := againFetched k.resumesAt k.circ.frame0, frame1 := againFetched k.resumesAt k.circ.frame1, fetch := none } }

/-- One kernel returns, with the instruction store where the site is new. -/
def State.restoreKern (s : State) (l core : Nat) (fresh : Bool) (k : Kern) (is : Tab (BitVec 512)) : State :=
  let s := s.modCore core fun c =>
    if fresh then { c.clean with is := is } else { c with is := is.foldl (fun t b => if (Tab.get? t b.1).isSome then t else Tab.set t b.1 b.2) c.is }
  { s with kerns := s.kerns ++ [k.moveTo l core (s.context k.ctx).bwphase] }

/-- CONTEXT_RESTORE (R399 step 4): the launch is placed again, its domains grouped as they were. -/
def execContextRestore (l : Nat) (ch : List Nat) (s : State) : Out :=
  match s.launch? l with
  | none => .next s
  | some x =>
    match (if x.st == .saved && !s.behind l x then s.plans x ch else none) with
    | none => .next s
    | some ps =>
      if s.placesBy x ch = false then .next s
      else
        let cores := ps.flatMap (·.cores)
        let old := x.savedDoms.map (·.2)
        let fresh := ps.all (·.fresh)
        let s := ((ps.zip old).foldl (fun s e => s.settle l e.1 { e.2 with started := true }) s)
        let s := ((x.saved.zip x.savedIs).zip cores).foldl (fun s e => s.restoreKern l e.2 fresh e.1.1 e.1.2) s
        let s := s.modLaunch l fun y => { y with
          st := .running, cores := cores, placedAt := s.hub.time, saved := [], savedDoms := [], savedIs := [] }
        let s := ps.foldl (fun s p => s.modSite p.site fun t =>
          if t.running.isNone && t.chosen.isNone && t.switch == 0 then { t with running := some (l * 4 + p.die) } else t) s
        .next (s.repost l)

/-! ## Hard stops (06 R168; 14 R380) -/

/-- A core of some launches is rewinding: from the detection of an error to the commit after the second run (14 R380). -/
def State.anyRerun (s : State) (ls : List Nat) : Bool :=
  s.kerns.any fun k => ls.contains k.launch && !k.ctl.dead && (k.inRewind || s.segError k)

/-- The first stop whose TIME has come, of those whose launches do not rewind: a rewind completes first (R168; 14 R380). -/
def State.dueStop (s : State) : Option (Nat × List Nat) :=
  s.hub.hardStops.find? fun e => decide (e.1 ≤ s.hub.time) && !s.anyRerun e.2

/-- HARD_STOP (06 R168): a due stop. -/
def execHardStop (s : State) : Out :=
  match s.dueStop with
  | none => .next s
  | some e =>
    let s := { s with hub := { s.hub with hardStops := removeFirst e s.hub.hardStops } }
    .next { s with doms := s.doms.map fun d => if e.2.contains d.2.launch then (d.1, { d.2 with hard := true, broken := true }) else d }

/-! ## The power arbiter (16 R416) -/

/-- The memory power reserved for a class. -/
def classPower (c : Nat) : Nat := if c = 2 then 460 else if c = 1 then 240 else 120

/-- The highest class among the enabled contexts. -/
def State.topClass (s : State) : Nat :=
  ((List.range 64).filter fun c => (s.context c).en).foldl (fun m c => max m (bitsOf (s.context c).bwphase.toNat 41 40)) 0

/-- IBUDGET in amperes. -/
def State.budget (s : State) : Nat := max 200 (min 2200 ((s.hub.pwrctl - classPower s.topClass - 175) * 10 / 7))

/-- ARBITER_GRANT (16 R416): every 5 us, 3,000 cycles; a die is granted what its demand sizes, as far as the budget goes, dies 0 to
3 served in that order where the demands together exceed it (log 83: DESIGN CHOICE). -/
def execArbiterGrant (s : State) : Out :=
  if s.hub.time < s.hub.nextGrant then .next s
  else
    let g := (List.range 4).foldl (fun (acc : List Nat × Nat) d =>
      let x := min (Config.demand d s.hub.time) acc.2
      (acc.1 ++ [x], acc.2 - x)) ([], s.budget)
    .next { s with hub := { s.hub with grants := g.1, nextGrant := s.hub.time + 3000 } }

end Sys2Proof.Machine
end

