-- ==== Sys2Proof/Machine/Packet.lean ====
section
/-! DEFINITION. The queue front-end: packets are taken in order, checked, take effect and complete (15 R386-R392, R400-R406;
13 R345, R351; 09 R231, R235, R241). -/

namespace Sys2Proof.Machine

/-! ## The packet (R387, R391, R401) -/

/-- A byte of a packet. -/
def pbyte (b : List Byte) (i : Nat) : Nat := field b i 1
/-- TYPE. -/
def ptype (b : List Byte) : Nat := pbyte b 0
/-- EVT of FLAGS. -/
def pevt (b : List Byte) : Bool := pbyte b 1 % 2 == 1
/-- CMPL. -/
def pcmpl (b : List Byte) : Nat := field b 8 8
/-- The CONC flag of a LAUNCH. -/
def pconc (b : List Byte) : Bool := ptype b == 1 && pbyte b 22 / 2 % 2 == 1
/-- The STOPERR flag of a LAUNCH. -/
def pstoperr (b : List Byte) : Bool := ptype b == 1 && pbyte b 22 / 4 % 2 == 1
/-- The DEF flag of a LAUNCH. -/
def pdef (b : List Byte) : Bool := pbyte b 22 / 16 % 2 == 1

/-- The bits that a type uses of a byte of its body. -/
def bodyMask (b : List Byte) (i : Nat) : Nat :=
  let whole := fun (lo hi : Nat) => if lo ≤ i ∧ i ≤ hi then 0xFF else 0
  match ptype b with
  | 1 =>
    if i = 22 then 0x3F
    else if pdef b && (i == 20 || i == 21 || (decide (24 ≤ i) && decide (i ≤ 39))) then 0
    else if i = 20 then 0x0F else if i = 21 then 0x3F
    else whole 16 19 ||| whole 24 49
  | 2 => whole 16 39
  | 3 => whole 16 17
  | 4 => if i = 40 then 0x07 else whole 16 39
  | 5 => if i = 40 then 0x05 else whole 16 31
  | 6 => if i < 16 ∨ 80 ≤ i then 0 else if i % 8 = 0 ∨ 4 ≤ i % 8 then 0xFF else 0
  | 7 => whole 16 16 ||| whole 24 39
  | 8 => whole 16 16 ||| whole 20 23 ||| whole 32 39
  | _ => 0

/-- The bits that may be set in a byte of a packet. -/
def usedMask (b : List Byte) (i : Nat) : Nat :=
  if i = 0 then 0xFF else if i = 1 then 1 else if i < 4 then 0 else if i < 16 then 0xFF else bodyMask b i

/-- The first byte with a reserved bit set. -/
def reservedAt (b : List Byte) : Option Nat :=
  (List.range 128).find? fun i => decide (pbyte b i &&& (0xFF - usedMask b i) ≠ 0)

/-- The checks common to every packet: TYPE, the reserved bytes, CMPL (R387, R392). -/
def headerFault (b : List Byte) : Option (Nat × Nat) :=
  if 8 < ptype b then some (0x10, 0)
  else
    match reservedAt b with
    | some i => some (0x11, i)
    | none => if pcmpl b % 16 ≠ 0 then some (0x14, 8) else none

/-! ## Taking (R386, R390, R400) -/

/-- The packets of a queue that have not taken full effect. -/
def Queue.pending (x : Queue) : List PkRun := x.cur.filter fun r => !r.finished

/-- The packet has been rejected, which is when it takes effect (R390); the rejection of a LAUNCH with STOPERR stops its queue,
which takes nothing more. -/
def PkRun.rejected (r : PkRun) : Bool :=
  match r.phase with
  | .done st _ _ => st != 0 && r.launch.isNone && !pstoperr r.bytes
  | _ => false

/-- A LAUNCH has started. -/
def State.hasStarted (s : State) (r : PkRun) : Bool :=
  match r.launch with
  | none => false
  | some l => match s.launch? l with | some x => x.st == .running || x.st == .stopping || x.st == .saved | none => true

/-- What was taken before a packet has taken effect. -/
def State.effective (s : State) (x : Queue) (p : Packet) : Bool :=
  match (x.pending.filter fun r => !r.rejected).getLast? with
  | none => true
  | some r => pconc p.bytes && ptype r.bytes == 1 && s.hasStarted r

/-- The next packet of a queue, with the queue that remains, if it may be taken. -/
def State.nextPacket (s : State) (q : Nat) : Option (Packet × Queue) :=
  let x := s.queue q
  match x.fifo with
  | [] => none
  | p :: t =>
    let past := match p.after with
      | none => true
      | some (c, n) => (s.core c).port.all fun i => i.op.isFence || decide (n ≤ i.oldest) || !i.open_
    if x.st == .running && !s.heldBy (.queue q) && past && s.effective x p then some (p, { x with fifo := t }) else none

/-- A packet is taken in a phase, and the FIFO filled up from the ring. -/
def State.take (s : State) (q : Nat) (p : Packet) (x : Queue) (ph : PkPhase) (l : Option Nat) : State :=
  (s.modQueue q fun _ => { x with cur := x.cur ++ [⟨p.bytes, ph, l, false, none⟩] }).refill q

/-- The packet of a type that a queue may take now; with a fault of its header it completes at once. -/
def State.takeTyped (s : State) (q t : Nat) (f : Packet → Queue → State) : State :=
  match s.nextPacket q with
  | none => s
  | some (p, x) =>
    if p.full || ptype p.bytes != t then s
    else
      match headerFault p.bytes with
      | some (st, d) => s.take q p x (.done st d 0) none
      | none => f p x

/-- A packet of a type is in effect and not done. -/
def PkRun.inEffect (r : PkRun) (t : Nat) : Bool :=
  !r.finished && ptype r.bytes == t && (match r.phase with | .done _ _ _ => false | _ => true)

/-- The packet under way of a type, with its phase changed. -/
def State.setPhase (s : State) (q t : Nat) (ph : PkPhase) : State :=
  let f := fun (r : PkRun) => if r.inEffect t then { r with phase := ph } else r
  s.modQueue q fun x => { x with cur := x.cur.map f }

/-- The packet of a type that is in effect and not done. -/
def State.busyPacket (s : State) (q t : Nat) : Option PkRun := (s.queue q).cur.find? fun r => r.inEffect t

/-! ## Completion (R388) -/

/-- The packets that have not been taken complete with STOPPED (R386). -/
def State.stopQueue (s : State) (q : Nat) : State :=
  s.modQueue q fun x => { x with
    st := .stopped
    cur := x.cur ++ (x.fifo ++ x.spill).map fun p => ⟨p.bytes, .done (if p.full then 0x17 else 0x41) 0 0, none, false, none⟩
    fifo := [], spill := [], owed := [] }

/-- The packet was never taken: it completes in queue order (R386). -/
def PkRun.untaken (r : PkRun) : Bool := match r.phase with | .done st _ _ => st == 0x41 || st == 0x17 | _ => false

/-- The first packet that may complete: LAUNCHes as they end, the others after every earlier packet. -/
def readyRun (earlier : Bool) : List PkRun → Nat → Option (Nat × PkRun)
  | [], _ => none
  | r :: t, i =>
    match r.phase with
    | .done _ _ _ =>
      if r.finished then readyRun earlier t (i + 1)
      else if earlier || (ptype r.bytes == 1 && !r.untaken) then some (i, r)
      else readyRun false t (i + 1)
    | _ => readyRun (earlier && r.finished) t (i + 1)

/-- The packet of a queue that completes next: one whose completion was held, else the first that may (R388). -/
def Queue.nextRun (x : Queue) : Option (Nat × PkRun) :=
  match x.heldAt with
  | some i => x.cur[i]?.map fun r => (i, r)
  | none => readyRun true x.cur 0

/-- The completion word (R388). -/
def completionWord (r : PkRun) (time : Nat) : List Byte :=
  match r.phase with
  | .done st d v => leBytes 4 (field r.bytes 4 4) ++ leBytes 1 st ++ leBytes 1 0 ++ leBytes 2 d
      ++ leBytes 8 (if st = 0 ∧ ptype r.bytes = 2 then v else time)
  | _ => []

/-- The status of a packet that is done. -/
def PkRun.status (r : PkRun) : Nat := match r.phase with | .done st _ _ => st | _ => 0

/-- The measurement chain: C0 before any object (16 R418). -/
def Hub.chainNow (h : Hub) : List Byte :=
  if h.chain.isEmpty then
    (Config.shake256 64 (Config.bootRomDigest.toList ++ Config.firmwareDigest.toList ++ leBytes 8 Config.devhash.toNat)).toList
  else h.chain

/-- The chain extended by an object's digest. -/
def Hub.measure (h : Hub) (digest : List Byte) : Hub :=
  { h with chain := (Config.shake256 64 (h.chainNow ++ digest)).toList, ncode := h.ncode + 1 }

/-- A completion after its word: a LOAD extends the measurement chain; RETIRED counts the completed prefix; the EVENT; a LAUNCH
with STOPERR that failed stops its queue (R388, R390; 16 R418). -/
def State.retirePacket (s : State) (q i : Nat) (r : PkRun) (evt : Bool) : State :=
  let w := completionWord r s.hub.time
  let ctx := (s.queue q).ctx
  let s := match r.digest with | some d => { s with hub := s.hub.measure d } | none => s
  let s := s.modQueue q fun x =>
    let cur := modifyAt (fun y => { y with finished := true }) x.cur i
    let n := (cur.takeWhile (·.finished)).length
    { x with cur := cur.drop n, retired := x.retired + BitVec.ofNat 32 n, heldAt := none }
  let s := if evt then { s with out := s.out ++ [.event 0x01 ctx q 0 w] } else s
  if pstoperr r.bytes && r.status != 0 && (s.queue q).st != .stopped then s.stopQueue q else s

/-- CMPL names a word that is written. -/
def writesWord (b : List Byte) : Bool := pcmpl b != 0 && pcmpl b % 16 == 0

/-- PACKET_COMPLETION (R388), once the header of the log is up to date (14 R367); a packet whose TYPE is not assigned, or that met a full ring, is taken here. -/
def execPacketCompletion (q : Nat) (s : State) : Out :=
  let x := s.queue q
  if s.heldBy (.queue q) then .next s
  else
    match x.nextRun with
    | some (i, r) =>
      match s.hubWrite x.ctx (s.context x.ctx).logaddr.toNat (s.context x.ctx).logHeader with
      | .ok (t, false) => .next t
      | _ =>
        let s := s.flushHeader x.ctx
        if writesWord r.bytes then
          match s.hubWrite x.ctx (pcmpl r.bytes) (completionWord r s.hub.time) with
          | .error e => .next ((s.modQueue q fun y => { y with heldAt := some i }).replayable (.queue q) x.ctx (pcmpl r.bytes) e 1)
          | .ok (t, false) => .next t
          | .ok (t, true) => .next (t.retirePacket q i r (pevt r.bytes))
        else .next (s.retirePacket q i r (pevt r.bytes))
    | none =>
      match s.nextPacket q with
      | some (p, y) =>
        if p.full then .next (s.take q p y (.done 0x17 0 0) none)
        else if 8 < ptype p.bytes then .next (s.take q p y (.done 0x10 0 0) none)
        else .next s
      | none => .next (s.attendRing q)

/-! ## NOPQ, UNLOAD, BARRIER, XLATEINV (R402, R406) -/

/-- NOPQ (R387). -/
def execNopq (q : Nat) (s : State) : Out := .next (s.takeTyped q 0 fun p x => s.take q p x (.done 0 0 0) none)

/-- An object loses a reference; the hub forgets one that has none (R406). -/
def State.unref (s : State) (o : Nat) : State :=
  let x := Tab.get default s.objs o
  { s with objs := if x.refs ≤ 1 then s.objs.erase o else Tab.set s.objs o { x with refs := x.refs - 1 } }

/-- UNLOAD (R406): it is taken once every earlier packet has taken effect. -/
def execUnload (q : Nat) (s : State) : Out :=
  .next (s.takeTyped q 3 fun p x =>
    let h := field p.bytes 16 2
    match Tab.get? x.handles h with
    | none => s.take q p x (.done 0x12 0 0) none
    | some o => (s.take q p { x with handles := x.handles.erase h } (.done 0 0 0) none).unref o)

/-- The marked entries of a BARRIER: index, queue, count. -/
def barrierEntries (b : List Byte) : List (Nat × Nat × BitVec 32) :=
  ((List.range 8).filter fun e => pbyte b (16 + 8 * e) / 128 == 1).map fun e =>
    (e, pbyte b (16 + 8 * e) % 128, BitVec.ofNat 32 (field b (20 + 8 * e) 4))

/-- Every queue that a BARRIER marks has come to its count. -/
def State.barrierMet (s : State) (b : List Byte) : Bool := (barrierEntries b).all fun e => serialLe e.2.2 (s.queue e.2.1).retired

/-- BARRIER (R402). -/
def execBarrier (q : Nat) (s : State) : Out :=
  match s.busyPacket q 6 with
  | some r => if s.barrierMet r.bytes then .next (s.setPhase q 6 (.done 0 0 0)) else .next s
  | none =>
    .next (s.takeTyped q 6 fun p x =>
      match (barrierEntries p.bytes).find? fun e => (s.queue e.2.1).st == .unbound || (s.queue e.2.1).ctx != x.ctx with
      | some e => s.take q p x (.done 0x16 e.1 0) none
      | none => s.take q p x (if s.barrierMet p.bytes then .done 0 0 0 else .busy) none)

/-- Translations of a context dropped from every cache, and its walks restarted: all, or those of pages that a range meets (09
R231). -/
def State.dropTranslations (s : State) (ctx : Nat) (range : Option (Nat × Nat)) : State :=
  let hit := fun (base size : Nat) => match range with | none => true | some (a, n) => decide (base < a + n) && decide (a < base + size)
  let f := fun (x : PItem) => if (s.kern x.kid).ctx == ctx && x.st == .waiting && hit x.va x.len then { x with tr := none } else x
  { s with
    tlb := s.tlb.filter fun t => !(t.ctx == ctx && hit t.base t.size)
    cores := s.cores.map fun c => (c.1, { c.2 with port := c.2.port.map f }) }

/-- XLATEINV (R402). -/
def execXlateinv (q : Nat) (s : State) : Out :=
  .next (s.takeTyped q 7 fun p x =>
    let b := p.bytes
    match pbyte b 16 with
    | 0 => (s.take q p x (.done 0 0 0) none).dropTranslations x.ctx none
    | 1 => (s.take q p x (.done 0 0 0) none).dropTranslations x.ctx (some (field b 24 8, field b 32 8))
    | _ => s.take q p x (.done 0x11 16 0) none)

/-! ## WAITVAL and SIGNAL (R402; 13 R345) -/

/-- The width in bytes of a WAITVAL or a SIGNAL. -/
def pwidth (b : List Byte) : Nat := if pbyte b 40 / 4 % 2 = 1 then 8 else 4

/-- The condition of a WAITVAL on a word; MASK and VALUE count in the word's width. -/
def waitMet (b : List Byte) (w : Nat) : Bool :=
  let m := 2 ^ (8 * pwidth b)
  let x := w &&& (field b 32 8 % m)
  let v := field b 24 8 % m
  match pbyte b 40 % 4 with
  | 0 => x == v
  | 1 => x != v
  | 2 => decide (v ≤ x)
  | _ => decide (x < v)

/-- WAITVAL (R402): its first read. -/
def execWaitval (q : Nat) (s : State) : Out :=
  .next (s.takeTyped q 4 fun p x =>
    let a := field p.bytes 16 8
    if a % pwidth p.bytes ≠ 0 then s.take q p x (.done 0x14 16 0) none
    else
      match s.hubRead x.ctx a (pwidth p.bytes) with
      | .error e => s.replayable (.queue q) x.ctx a e
      | .ok (s, none) => s
      | .ok (s, some l) => s.take q p { x with reread := false } (if waitMet p.bytes (leNat (l.map (·.b))) then .done 0 0 0 else .busy) none)

/-- WAITVAL_REREAD (R402): after a write to the word. -/
def execWaitvalReread (q : Nat) (s : State) : Out :=
  let x := s.queue q
  match s.busyPacket q 4 with
  | none => .next s
  | some r =>
    if !x.reread || s.heldBy (.queue q) then .next s
    else
      let a := field r.bytes 16 8
      match s.hubRead x.ctx a (pwidth r.bytes) with
      | .error e => .next (s.replayable (.queue q) x.ctx a e)
      | .ok (s, none) => .next s
      | .ok (s, some l) =>
        let s := s.modQueue q fun y => { y with reread := false }
        .next (if waitMet r.bytes (leNat (l.map (·.b))) then s.setPhase q 4 (.done 0 0 0) else s)

/-- The pieces of 4 bytes of a SIGNAL's word. -/
def pieces (b : List Byte) : Nat := pwidth b / 4

/-- One access of a SIGNAL ADD on a page without SYSATOM: the reads, low word first, then the writes (13 R345). -/
def State.signalStep (s : State) (q : Nat) (b : List Byte) (n acc : Nat) : State :=
  let ctx := (s.queue q).ctx
  let a := field b 16 8
  let k := pieces b
  if n < k then
    match s.hubRead ctx (a + 4 * n) 4 with
    | .error e => s.replayable (.queue q) ctx (a + 4 * n) e
    | .ok (s, none) => s
    | .ok (s, some l) => s.setPhase q 5 (.steps (n + 1) (acc + 2 ^ (32 * n) * leNat (l.map (·.b))))
  else
    let v := (acc + field b 24 8) % 2 ^ (8 * pwidth b)
    let i := n - k
    match s.hubWrite ctx (a + 4 * i) (leBytes 4 (v / 2 ^ (32 * i))) with
    | .error e => s.replayable (.queue q) ctx (a + 4 * i) e
    | .ok (s, false) => s
    | .ok (s, true) => s.setPhase q 5 (if n + 1 = 2 * k then .done 0 0 0 else .steps (n + 1) acc)

/-- SIGNAL (R402): SET and, on a SYSATOM page, ADD as one entry. -/
def execSignal (q : Nat) (s : State) : Out :=
  match s.busyPacket q 5 with
  | some r =>
    if s.heldBy (.queue q) then .next s
    else match r.phase with | .steps n acc => .next (s.signalStep q r.bytes n acc) | _ => .next s
  | none =>
    .next (s.takeTyped q 5 fun p x =>
      let a := field p.bytes 16 8
      let w := pwidth p.bytes
      let v := field p.bytes 24 8 % 2 ^ (8 * w)
      if a % w ≠ 0 then s.take q p x (.done 0x14 16 0) none
      else
        match s.hubAccess x.ctx a true with
        | .error e => s.replayable (.queue q) x.ctx a e
        | .ok (s, none) => s
        | .ok (s, some t) =>
          if pbyte p.bytes 40 % 2 = 1 ∧ !t.sysatom then s.take q p x (.steps 0 0) none
          else
            let s := if pbyte p.bytes 40 % 2 = 1 then s.consume (.hub x.ctx 9) t x.ctx t.pa w else s
            let old := if pbyte p.bytes 40 % 2 = 1 then leNat (s.readPhys t.enc t.pa w) else 0
            (s.performWrite (.hub x.ctx 9) t x.ctx t.pa (leBytes w (old + v))).take q p x (.done 0 0 0) none)

/-! ## PANCTL (R402; 09 R235, R239, R241) -/

/-- The groups of a mask. -/
def groupsOf (m : Nat) : List Nat := (List.range Config.groups).filter fun g => m / 2 ^ g % 2 == 1

/-- The first group of a mask that is already in the requested state. -/
def State.panWrong (s : State) (m : Nat) (alloc : Bool) : Option Nat := (groupsOf m).find? fun g => (s.pan g).alloc == alloc

/-- Groups are allocated: their wake from DEEP begins, and then their initialisation (R235). -/
def State.allocGroups (s : State) (ctx m : Nat) : State :=
  let tag := if (s.context ctx).keySt = 1 then s.ctxTag ctx else 0
  (groupsOf m).foldl (fun s g => s.modPan g fun p =>
    { p with alloc := true, init := true, st := .waking, ready := s.hub.time + wakeCycles .deep, hotcnt := 0, cold := false, enc := tag }) s

/-- Every group of a mask has been initialised. -/
def State.allocated (s : State) (m : Nat) : Bool := (groupsOf m).all fun g => !(s.pan g).init

/-- Every group of a mask has empty queues. -/
def State.allQuiet (s : State) (m : Nat) : Bool := (groupsOf m).all s.groupQuiet

/-- Groups are freed (R235). -/
def State.freeGroups (s : State) (m : Nat) : State :=
  (groupsOf m).foldl (fun s g => s.modPan g fun p =>
    { p with alloc := false, init := false, st := .deep, hotcnt := 0, cold := false, enc := 0 }) s

/-- A BWPHASE value that R239 forbids. -/
def phaseBad (v : Nat) : Bool := decide (v / 2 ^ 42 ≠ 0) || bitsOf v 41 40 == 3

/-- A BWPHASE value is sent to the hub. -/
def State.sendPhase (s : State) (ctx v : Nat) : State := { s with hub := { s.hub with bwq := s.hub.bwq ++ [(ctx, BitVec.ofNat 42 v)] } }

/-- The PANCTL packet that a queue may take now, when its OP is the one wanted. -/
def State.takePan (s : State) (q op : Nat) (f : Packet → Queue → Nat → State) : State :=
  match s.nextPacket q with
  | none => s
  | some (p, _) => if pbyte p.bytes 16 = op ∨ (op = 0 ∧ 2 < pbyte p.bytes 16) then s.takeTyped q 8 (fun p x => f p x (field p.bytes 20 4)) else s

/-- The PANCTL in effect is of an OP. -/
def State.busyPan (s : State) (q op : Nat) : Option Nat :=
  match s.busyPacket q 8 with
  | some r => if pbyte r.bytes 16 = op then some (field r.bytes 20 4) else none
  | none => none

/-- PANCTL_ALLOC (R235); an OP that is not assigned is refused here. -/
def execPanctlAlloc (q : Nat) (s : State) : Out :=
  match s.busyPan q 0 with
  | some m => if s.allocated m then .next (s.setPhase q 8 (.done 0 0 0)) else .next s
  | none =>
    .next (s.takePan q 0 fun p x m =>
      if 2 < pbyte p.bytes 16 then s.take q p x (.done 0x11 16 0) none
      else
        match s.panWrong m true with
        | some g => s.take q p x (.done 0x60 g 0) none
        | none => (s.take q p x .busy none).allocGroups x.ctx m)

/-- PANCTL_FREE (R235). -/
def execPanctlFree (q : Nat) (s : State) : Out :=
  match s.busyPan q 1 with
  | some m => if s.allQuiet m then .next ((s.freeGroups m).setPhase q 8 (.done 0 0 0)) else .next s
  | none =>
    .next (s.takePan q 1 fun p x m =>
      match s.panWrong m false with
      | some g => s.take q p x (.done 0x60 g 0) none
      | none => s.take q p x .busy none)

/-- PANCTL_PHASE (R402). -/
def execPanctlPhase (q : Nat) (s : State) : Out :=
  .next (s.takePan q 2 fun p x _ =>
    let v := field p.bytes 32 8
    if phaseBad v then s.take q p x (.done 0x11 32 0) none else (s.take q p x (.done 0 0 0) none).sendPhase x.ctx v)

end Sys2Proof.Machine
end

