-- ==== Sys2Proof/Machine/Load.lean ====
section
/-! DEFINITION. LOAD and LAUNCH as the front-end checks them (15 R391, R392, R403-R405, R438; 02 R37; 16 R418). -/

namespace Sys2Proof.Machine

/-! ## Resources (02 R37; 15 R391, R392) -/

/-- Bytes 20 to 39 of a launch record, or the defaults of a kernel: SM1, QM1, the resources, YFIRST. -/
structure Shape where
  sm1 : Nat
  qm1 : Nat
  res : Res
  yfirst : Nat
  deriving DecidableEq, Repr, Inhabited

/-- The shape in a list of bytes that begins where SM1 stands. -/
def shapeOf (b : List Byte) : Shape :=
  ⟨field b 0 1, field b 1 1, ⟨field b 4 2, field b 6 2, field b 8 2, field b 10 2, field b 12 1, field b 13 1, field b 14 1, field b 15 1⟩,
   field b 16 4⟩

/-- The resources in the order of the resource indices: AB, XS, WS, NS, IS, TDT, ST, COPY. -/
def Res.list (r : Res) : List Nat := [r.ab, r.xs, r.ws, r.ns, r.is, r.tdt, r.st, r.copy]

/-- The limits of the resources in that order: least, greatest, step. -/
def resLimits : List (Nat × Nat × Nat) :=
  [(4, 512, 4), (0, 16, 1), (0, 512, 1), (0, 256, 64), (1, 2, 1), (0, 256, 1), (0, 8, 1), (0, 4, 1)]

/-- A value keeps its limits. -/
def inLimits (v : Nat) (l : Nat × Nat × Nat) : Bool := decide (l.1 ≤ v) && decide (v ≤ l.2.1) && v % l.2.2 == 0

/-- The first resource outside its limits or below a minimum. -/
def resFault (r min : Res) : Option Nat :=
  (List.range 8).find? fun i =>
    !inLimits (r.list.getD i 0) (resLimits.getD i (0, 0, 1)) || decide (r.list.getD i 0 < min.list.getD i 0)

/-! ## Code objects (R403, R405, R438) -/

/-- The reserved bytes of a header: bytes 23:18 and 127:88. -/
def headerReserved (h : List Byte) : Option Nat :=
  (List.range 128).find? fun i => (decide (18 ≤ i) && decide (i < 24) || decide (88 ≤ i)) && field h i 1 != 0

/-- An offset and a length of a header, by their position: 24 is the kernel table, whose length its count gives. -/
def headerPart (h : List Byte) (at_ : Nat) : Nat × Nat :=
  (field h at_ 4, if at_ = 24 then 64 * field h 16 2 else field h (at_ + 4) 4)

/-- The first part whose offset is no multiple of 64 or that leaves the object. -/
def partFault (h : List Byte) (size : Nat) : Option Nat :=
  [24, 32, 40, 48, 56, 64, 72, 80].find? fun a =>
    let p := headerPart h a
    p.1 % 64 != 0 || decide (size < p.1 + p.2)

/-- An entry of the kernel table breaks its limits (02 R37, R36; R438). That an entry in H1 breaks them where the default IS is 1
is the model's choice (log 72). -/
def kernelBad (e : List Byte) (nrec : Nat) : Bool :=
  let s := shapeOf (e.drop 6)
  let a := field e 0 2
  decide (2 ^ 11 ≤ a) || decide (0x780 ≤ a) || (s.res.is == 1 && decide (0x3C0 ≤ a))
    || decide (16 ≤ s.sm1) || decide (64 ≤ s.qm1) || decide (256 < (s.sm1 + 1) * (s.qm1 + 1))
    || field e 8 2 != 0 || field e 26 38 != 0 || s.yfirst == 0 || (resFault s.res .zero).isSome
    || decide (nrec < field e 2 2 + field e 4 2)

/-- An initialiser record breaks its layout, for a kernel with a TDT value (R438). -/
def recordBad (r : List Byte) (tdt : Nat) : Bool :=
  match field r 0 1 with
  | 0 => decide (tdt ≤ field r 1 1) || field r 2 6 != 0 || field r 56 8 != 0
  | 1 => decide (16 ≤ field r 1 1) || field r 2 6 != 0 || field r 12 60 != 0
  | _ => true

/-- A record that no kernel's range reaches breaks what it can break by itself. -/
def recordBadAlone (r : List Byte) : Bool := recordBad r 256

/-- The first fault of the records of a kernel. -/
def initFault (init : List Byte) (first count tdt : Nat) : Option Nat :=
  ((List.range count).map (· + first)).find? fun i => recordBad ((init.drop (72 * i)).take 72) tdt

/-- The first byte offset at which an object is malformed (R405 step 1). -/
def objectFault (b : List Byte) (size : Nat) : Option Nat :=
  let nk := field b 16 2
  if size < 128 ∨ field b 0 4 ≠ 0x4F43_5647 then some 0
  else if field b 4 2 ≠ 1 then some 4
  else
    match headerReserved b, partFault b size with
    | some i, _ => some i
    | none, some i => some i
    | none, none =>
      if nk = 0 ∨ 256 < nk then some 16
      else
        let kt := (headerPart b 24).1
        let (io, il) := headerPart b 56
        if il % 72 ≠ 0 then some 60
        else
          let init := (b.drop io).take il
          let kern := fun j => (b.drop (kt + 64 * j)).take 64
          match (List.range nk).find? fun j => kernelBad (kern j) (il / 72) with
          | some j => some (kt + 64 * j)
          | none =>
            match (List.range nk).findSome? fun j =>
                let e := kern j
                initFault init (field e 2 2) (field e 4 2) (shapeOf (e.drop 6)).res.tdt with
            | some i => some (io + 72 * i)
            | none =>
              match (List.range (il / 72)).find? fun i => recordBadAlone ((init.drop (72 * i)).take 72) with
              | some i => some (io + 72 * i)
              | none => none

/-- Writes of the hub to device memory, one after the other: the state, and whether all were made. -/
def State.hubWriteAll (s : State) (ctx : Nat) : List EWrite → Except (Nat × Nat) (State × Bool)
  | [] => .ok (s, true)
  | w :: ws =>
    match s.hubAccess ctx w.va true with
    | .error e => .error (w.va, e)
    | .ok (s, none) => .ok (s, false)
    | .ok (s, some t) =>
      (match w.mark with
        | some o => s.performMark t.pa o
        | none => s.performWrite (.hub ctx 9) t ctx t.pa w.bytes).hubWriteAll ctx ws

/-- The object registered with an address and a data base, by whichever context. -/
def State.sameObject (s : State) (oa db : Nat) : Option (Nat × Obj) := s.objs.find? fun o => o.2.objaddr == oa && o.2.database == db

/-- A number that no object has. -/
def State.freshObj (s : State) : Nat := s.objs.foldl (fun m o => max m (o.1 + 1)) 1

/-- An object that passed every check gets a handle; a new one is registered. -/
def State.register (s : State) (q : Nat) (p : Packet) (x : Queue) (h oa db : Nat) (b : List Byte) : State :=
  let (n, o) := match s.sameObject oa db with
    | some e => (e.1, { e.2 with refs := e.2.refs + 1 })
    | none =>
      let kt := headerPart b 24
      (s.freshObj, ⟨x.ctx, oa, db, 1, b.take 128, (b.drop kt.1).take kt.2⟩)
  let s := { s with objs := Tab.set s.objs n o }
  let digest := (Config.shake256 64 b).toList
  let last := x.cur.length
  (s.take q p { x with handles := Tab.set x.handles h n } (.done 0 0 h) none).modQueue q fun y =>
    { y with cur := modifyAt (fun r => { r with digest := some digest }) y.cur last }

/-- LOAD (R405). -/
def execLoad (q : Nat) (s : State) : Out :=
  .next (s.takeTyped q 2 fun p x =>
    let oa := field p.bytes 16 8
    let size := field p.bytes 24 8
    let db := field p.bytes 32 8
    let done := fun (st d : Nat) => s.take q p x (.done st d 0) none
    if oa % 64 ≠ 0 then done 0x14 16
    else if db % 64 ≠ 0 then done 0x14 32
    else
      match s.hubRange x.ctx oa size with
      | .error e => s.replayable (.queue q) x.ctx e.1 e.2
      | .ok (s, none) => s
      | .ok (s, some l) =>
        let done := fun (st d : Nat) => s.take q p x (.done st d 0) none
        let b := l.map (·.b)
        match objectFault b size with
        | some off => done 0x32 off
        | none =>
          if field b 8 8 ≠ Config.devhash.toNat then done 0x30 0
          else if Config.devfeat.toNat % 2 ^ 16 < field b 6 2 then done 0x31 (field b 6 2)
          else
            match ((List.range 64).map (· + 1)).find? fun h => (Tab.get? x.handles h).isNone with
            | none => done 0x15 0
            | some h =>
              let d := headerPart b 64
              let ws := if (s.sameObject oa db).isSome then [] else (deviceWrites db ((l.drop d.1).take d.2) []).1
              match s.hubWriteAll x.ctx ws with
              | .error e => s.replayable (.queue q) x.ctx e.1 e.2
              | .ok (s, false) => s
              | .ok (s, true) => s.register q p x h oa db b)

/-! ## LAUNCH (R391, R392) -/

/-- The launch record with its shape, its kernel's minimum, and the kernel's index. -/
def launchShape (b : List Byte) (o : Obj) : Shape := if pdef b then shapeOf ((o.kernel (field b 18 2)).drop 6) else shapeOf (b.drop 20)

/-- The checks of R392 after the handle and the kernel index: a status and its detail. -/
def launchFault (b : List Byte) (o : Obj) (savesize : Nat) : Option (Nat × Nat) :=
  let s := launchShape b o
  let least := (shapeOf ((o.kernel (field b 18 2)).drop 6)).res
  let n := (s.sm1 + 1) * (s.qm1 + 1)
  match resFault s.res least with
  | some i => some (0x14, i)
  | none =>
    if s.yfirst = 0 then some (0x14, 36)
    else if field b 40 8 % 8 ≠ 0 then some (0x14, 40)
    else if field b 48 2 % 8 ≠ 0 ∨ min 4096 (1024 * s.res.ab) < field b 48 2 then some (0x14, 48)
    else if savesize < n * 2 ^ 22 then some (0x14, 20)
    else if pbyte b 22 % 2 = 1 ∧ s.res.xs = 16 then some (0x21, 1)
    else if 256 < n then some (0x22, 0)
    else none

/-- The launch that a record makes. -/
def Launch.make (b : List Byte) (q : Nat) (x : Queue) (obj : Nat) (o : Obj) (time : Nat) : Launch :=
  let s := launchShape b o
  let f := fun i => pbyte b 22 / 2 ^ i % 2 == 1
  ⟨q, x.ctx, obj, field b 18 2, s.sm1 + 1, s.qm1 + 1, f 0, f 1, f 2, f 3, f 5, s.res, s.yfirst, field b 40 8, field b 48 2, .waiting, [], time, 0, [],
   [], []⟩

/-- LAUNCH (R392). -/
def execLaunch (q : Nat) (s : State) : Out :=
  .next (s.takeTyped q 1 fun p x =>
    let b := p.bytes
    let done := fun (st d : Nat) => s.take q p x (.done st d 0) none
    match Tab.get? x.handles (field b 16 2) with
    | none => done 0x12 0
    | some n =>
      let o := Tab.get default s.objs n
      if field o.header 16 2 ≤ field b 18 2 then done 0x13 0
      else
        match launchFault b o (s.context x.ctx).savesize.toNat with
        | some (st, d) => done st d
        | none =>
          let l := s.hub.nextLaunch
          let s := { s with
            launches := Tab.set s.launches l (Launch.make b q x n o s.hub.time)
            hub := { s.hub with nextLaunch := l + 1 } }
          s.take q p x .busy (some l))

end Sys2Proof.Machine
end

