-- ==== Sys2Proof/Machine/Fabric.lean ====
section
/-! DEFINITION. Host messages and the CFG space (16 R411, R412, R416; 13 R350, R351; 14 R369; 09 R232, R234, R235; 15 R386,
R388). -/

namespace Sys2Proof.Machine

/-! ## Messages -/

/-- The KINDs that a host sends, and a fabric atomic (13 R345). -/
def Msg.isRequest (m : Msg) : Bool := m.amo.isSome || (decide (1 ≤ m.kind) && decide (m.kind ≤ 6))

/-- A KIND that R408 and R411 assign. -/
def Msg.isAssigned (m : Msg) : Bool := m.isRequest || m.kind == 8 || m.kind == 9 || (decide (0x40 ≤ m.kind) && decide (m.kind ≤ 0x42))

/-- What is no request, or comes through a port that is down, is discarded ahead of the next message; an unassigned KIND is counted
(R408, R409). -/
def State.dropForeign (s : State) : State :=
  let gone := s.hostIn.takeWhile fun m => !m.isRequest || (s.lport m.via).down
  { s with
    hostIn := s.hostIn.drop gone.length
    hub := s.hub.countUp 3 (gone.filter fun m => !m.isAssigned).length }

/-- An answer to the message at the head of the host's input. -/
def State.respond (s : State) (m : Msg) (status : Nat) (data : List Byte) : State :=
  { s with hostIn := s.hostIn.drop 1, out := s.out ++ [.resp m.src m.tag status false data] }

/-- Requests of a source are still to be performed (13 R351). -/
def State.sourceBusy (s : State) (src : Nat) : Bool := s.reqs.any fun r => r.2.src == src && decide (0 < r.2.left)

/-! ## The CFG space, reading (R412) -/

/-- The number of a power state (09 R234). -/
def PanSt.code (x : PanSt) : Nat := match x with | .deep => 0 | .retain => 1 | .idle => 2 | .active => 3 | .waking => 4

/-- A Saltern map entry (09 R234). -/
def Pan.word (p : Pan) : Nat :=
  p.st.code + (if p.alloc then 2 ^ 5 else 0) + (if p.init then 2 ^ 6 else 0) + (if p.scrubOwed then 2 ^ 7 else 0) + p.hotcnt * 2 ^ 16

/-- CTXCTL (R412). -/
def Ctx.word (c : Ctx) : Nat := (if c.en then 2 ^ 63 else 0) + c.rootg.toNat * 2 ^ 48 + c.rootoff.toNat * 2 ^ 13

/-- The number of a queue's state (15 R386). -/
def QState.code (x : QState) : Nat := match x with | .unbound => 0 | .running => 1 | .stopped => 2 | .held => 3

/-- A queue's state register (15 R386). -/
def Queue.word (x : Queue) : Nat := x.st.code + x.rank * 2 ^ 4 + x.ctx * 2 ^ 8 + x.fill * 2 ^ 16 + x.retired.toNat * 2 ^ 32

/-- ATTCTL (R418). -/
def Hub.attctl (h : Hub) : Nat := (if h.attBusy then 1 else 0) + (if h.attReady then 2 else 0) + (if h.attFail then 4 else 0)

/-- What a read of a CFG address gives. -/
inductive CfgVal where
  | val (v : Nat)
  /-- A register whose read the manual leaves open. -/
  | free
  | bad
  deriving DecidableEq, Repr, Inhabited

/-- The registers of a context. -/
def Ctx.cfg (c : Ctx) (r : Nat) : CfgVal :=
  match r with
  | 0 => .val c.word
  | 8 => .val c.logaddr.toNat
  | 16 => .val c.saveaddr.toNat
  | 24 => .val c.savesize.toNat
  | 32 => .free
  | _ => .bad

/-- The registers of a queue. -/
def Queue.cfg (x : Queue) (r : Nat) : CfgVal :=
  match r with
  | 0 => .val x.word
  | 8 => .val x.ringbase.toNat
  | 16 => .val x.ringcap.toNat
  | 24 => .free
  | _ => .bad

/-- A read of the CFG space (R412, R416, R418, R420). -/
def State.cfgRead (s : State) (a : Nat) : CfgVal :=
  let h := s.hub
  if a % 8 ≠ 0 then .bad
  else if a = 0 then .val Config.devfeat.toNat
  else if a = 8 then .val Config.devhash.toNat
  else if a = 16 then .val h.nodeid.toNat
  else if 0x100 ≤ a ∧ a < 0x200 then .val (s.pan ((a - 0x100) / 8)).word
  else if 0x1_0000 ≤ a ∧ a < 0x1_1000 then (s.context ((a - 0x1_0000) / 64)).cfg (a % 64)
  else if 0x2_0000 ≤ a ∧ a < 0x2_2000 then (s.queue ((a - 0x2_0000) / 64)).cfg (a % 64)
  else if a = 0x3_0000 then .val h.pwrctl
  else if a = 0x3_0008 then .val (leNat (h.grants.flatMap (leBytes 2)))
  else if a = 0x4_0020 then .val h.attctl
  else if 0x4_0100 ≤ a ∧ a < 0x4_76E0 then (if h.attReady then .val (field h.report (a - 0x4_0100) 8) else .bad)
  else if 0x5_0000 ≤ a ∧ a < 0x9_0000 then
    let c := s.context ((a - 0x5_0000) / 4096)
    if a % 4096 = 0x800 then .val (c.keySt * 2 ^ 8)
    else if a % 4096 = 0x808 then .val c.keyid.toNat
    else .bad
  else .bad

/-! ## The CFG space, which event a write is -/

/-- A CFGWR's address and value. -/
def Msg.cfgAddr (m : Msg) : Nat := m.addr % 2 ^ 32
/-- Its payload. -/
def Msg.value (m : Msg) : Nat := field m.data 0 8

/-- The event that a write to a CFG address is; one without behaviour of its own is CFGWR. -/
def writeEvent (a v : Nat) : Instr :=
  if 0x1_0000 ≤ a ∧ a < 0x1_1000 then
    match a % 64 with
    | 0 => .ctxctlWrite
    | 32 => if v % 4 = 1 then .faultctlResume else if v % 4 = 2 then .faultctlEnd else .cfgwr
    | _ => .cfgwr
  else if 0x2_0000 ≤ a ∧ a < 0x2_2000 ∧ a % 64 = 24 then
    match v % 8 with
    | 1 => .qctlBind
    | 2 => .qctlStart
    | 3 => .qctlHold
    | 4 => .qctlRelease
    | 5 => .qctlUnbind
    | _ => .cfgwr
  else if a = 0x3_0000 then .pwrctlWrite
  else if a = 0x4_0020 then .attctlStart
  else if 0x5_0000 ≤ a ∧ a < 0x9_0000 then
    if a % 4096 < 0x620 ∧ a % 8 = 0 then .kemctWrite
    else if a % 4096 = 0x800 then
      if v / 2 ^ 11 = 0 ∧ v / 8 % 32 = 0 then (if v % 8 = 1 then .keyctlInstall else if v % 8 = 2 then .keyctlErase else .cfgwr) else .cfgwr
    else .cfgwr
  else .cfgwr

/-- The event that the message at the head of the host's input is. Firmware that does not run answers everything with BADCTX
(R417), which CFGRD does here. -/
def State.msgEvent (s : State) (m : Msg) : Instr :=
  if !s.hub.verified then .cfgrd
  else
    match (if m.amo.isSome then 4 else m.kind) with
    | 1 => .cfgrd
    | 2 => writeEvent m.cfgAddr m.value
    | 3 => .memrd
    | 4 => .memwr
    | 5 => .qappend
    | _ => .fabricPanctl

/-- The message that an event handles now: the ports are up, and it stands at the head. -/
def State.message (s : State) (i : Instr) : Option Msg :=
  match s.hostIn with
  | [] => none
  | m :: _ => if s.hub.up && s.hub.linksUp && m.isRequest && s.msgEvent m == i then some m else none

/-- Run what an event does with its message. -/
def State.onMessage (s : State) (i : Instr) (f : State → Msg → State) : State :=
  let t := if s.hub.up && s.hub.linksUp then s.dropForeign else s
  match t.message i with
  | some m => f t m
  | none => t

/-! ## CFGRD, CFGWR -/

/-- CFGRD (R411). -/
def execCfgrd (s : State) : Out :=
  .next (s.onMessage .cfgrd fun s m =>
    if !s.hub.verified then s.respond m 5 []
    else
      match s.cfgRead m.cfgAddr with
      | .val v => s.respond m 0 (leBytes 8 v)
      | .free => let (n, s) := s.choose
                 s.respond m 0 (leBytes 8 (Config.freeWord n).toNat)
      | .bad => s.respond m 4 [])

/-- A write to a register without behaviour of its own; none where the address refuses it (R412, R418). -/
def State.cfgWrite (s : State) (a v : Nat) : Option State :=
  let w := wordOf v
  if 0x1_0000 ≤ a ∧ a < 0x1_1000 then
    let n := (a - 0x1_0000) / 64
    let c := s.context n
    let put := fun (old : Word) (aligned : Bool) (f : Ctx → Ctx) =>
      if (c.en && old != w) || (aligned && v % 2 ^ 21 != 0) then none else some (s.modCtx n f)
    match a % 64 with
    | 8 => put c.logaddr true fun x => { x with logaddr := w }
    | 16 => put c.saveaddr true fun x => { x with saveaddr := w }
    | 24 => put c.savesize false fun x => { x with savesize := w }
    | _ => none
  else if 0x2_0000 ≤ a ∧ a < 0x2_2000 then
    let q := (a - 0x2_0000) / 64
    match a % 64 with
    | 8 => some (s.modQueue q fun x => { x with ringbase := w })
    | 16 => some (s.modQueue q fun x => { x with ringcap := w })
    | _ => none
  else if 0x4_0000 ≤ a ∧ a < 0x4_0020 ∧ a % 8 = 0 then
    if s.hub.attBusy then none else some { s with hub := { s.hub with nonce := Tab.put 0 s.hub.nonce ((a - 0x4_0000) / 8) w } }
  else none

/-- CFGWR (R411). -/
def execCfgwr (s : State) : Out :=
  .next (s.onMessage .cfgwr fun s m =>
    match s.cfgWrite m.cfgAddr m.value with
    | some t => t.respond m 0 []
    | none => s.respond m 4 [])

/-- CTXCTL_WRITE (R412): EN = 1 resets the log's header and BWPHASE; reservations of the old log are void. -/
def execCtxctlWrite (s : State) : Out :=
  .next (s.onMessage .ctxctlWrite fun s m =>
    let n := (m.cfgAddr - 0x1_0000) / 64
    let c := s.context n
    let g := BitVec.ofNat 5 (bitsOf m.value 52 48)
    let o := BitVec.ofNat 35 (bitsOf m.value 47 13)
    if c.en && (c.rootg != g || c.rootoff != o) then s.respond m 4 []
    else
      let on := bitsOf m.value 63 63 == 1
      let s := s.modCtx n fun x =>
        let x := { x with en := on, rootg := g, rootoff := o }
        if on then { x with bwphase := 0, next := 1, ovf := 0, miss := 0, san := 0, lastTime := 0 } else x
      let s := if on then
          let s := { s with
            cores := s.cores.map fun (c : Nat × Core) => (c.1, c.2.setResv n [])
            kerns := s.kerns.map fun (k : Kern) => if k.ctx = n then { k with spr := { k.spr with bwphase := 0 } } else k
            hub := { s.hub with dieResv := s.hub.dieResv.filter fun e => e.1 % 64 != n } }
          s.flushHeader n
        else s
      (s.recount false).respond m 0 [])

/-! ## FAULTCTL (09 R232; 15 R388) -/

/-- The pending fault that a FAULTCTL write names. -/
def State.namedFault (s : State) (m : Msg) : Option RFault :=
  s.rfaults.find? fun f => f.ctx == (m.cfgAddr - 0x1_0000) / 64 && s.requesterNumber f.req == m.value / 2 ^ 32

/-- The fault is no longer pending. -/
def State.clearFault (s : State) (f : RFault) : State := { s with rfaults := removeFirst f s.rfaults }

/-- FAULTCTL_RESUME (R232). -/
def execFaultctlResume (s : State) : Out :=
  .next (s.onMessage .faultctlResume fun s m =>
    match s.namedFault m with
    | some f => (s.clearFault f).respond m 0 []
    | none => s.respond m 4 [])

/-- The kernel of a requester, if it has one: of a port, the one whose access to the address waits, or which a load ahead of the
bundle holds (R232). -/
def State.faultKern (s : State) (f : RFault) : Option Kern :=
  match f.req with
  | .port c =>
    match (s.core c).port.find? fun x => x.va == f.va && x.st == .waiting && (s.kern x.kid).ctx == f.ctx with
    | some x => s.kern? x.kid
    | none => s.kerns.find? fun k => k.core == c && k.ctx == f.ctx && (k.ctl.xlate.map (·.1)) == some f.va
  | .engine k _ => s.kern? k
  | _ => none

/-- The PUT whose write met the fault (16 R415). -/
def State.faultPut (s : State) (f : RFault) : Option (Nat × Run) :=
  match f.req with
  | .engine k 6 => ((s.kern k).link.runs.find? fun r => r.op.isPut && r.mem.wq.any fun w => w.va == f.va).map fun r => (k, r)
  | _ => none

/-- The packet whose completion word met the fault. -/
def State.faultWord (s : State) (f : RFault) : Option (Nat × Nat × PkRun) :=
  match f.req with
  | .queue q =>
    let x := s.queue q
    if f.from_ = 1 ∧ x.heldAt.isSome then x.nextRun.map fun e => (q, e.1, e.2) else none
  | _ => none

/-- The message of another package's PUT that a fault of its port holds. -/
def State.heldPut (s : State) (r : Requester) : Option Msg :=
  match r with
  | .remote via src => s.putsHeld.find? fun m => m.via == via && m.src == src
  | _ => none

/-- The host ends the fault of another package's PUT: it is not performed, and answers XLATE, with which its LSEND ends there with
REMOTE (16 R411, R415). -/
def State.dropPut (s : State) (p : Msg) : State :=
  { s with putsHeld := removeFirst p s.putsHeld, out := s.out ++ [.resp p.src p.tag 1 false []] }

/-- FAULTCTL_END (R232): a completion word is dropped with an EVENT (15 R388); a PUT, of this package or another, ends with REMOTE
(16 R415); any other fault ends in the uncontained fault XLATE. -/
def execFaultctlEnd (s : State) : Out :=
  .next (s.onMessage .faultctlEnd fun s m =>
    match s.namedFault m with
    | none => s.respond m 4 []
    | some f =>
      let t := s.clearFault f
      match s.faultWord f, s.faultPut f, s.heldPut f.req with
      | some (q, i, r), _, _ => (t.retirePacket q i r true).respond m 0 []
      | none, some (k, r), _ =>
        ((t.modRun k 6 r.op.id.toNat fun y => { y with mem := { y.mem with want := [], wq := [] } }).linkEnd k r.op.id.toNat 0x33).respond m 0 []
      | none, none, some p => (t.dropPut p).respond m 0 []
      | none, none, none =>
        (match s.faultKern f with
          | some k => t.uncontained k.kid 0x05 0 0 0 (pcValue k.ctl.pc 0) 0 0
          | none => t.ufault f.ctx 0x05).respond m 0 [])

/-! ## QCTL (R412) -/

/-- A QCTL command on its queue: none in the wrong state. -/
def State.qctl (s : State) (m : Msg) (f : Nat → Queue → Option State) : State :=
  let q := (m.cfgAddr - 0x2_0000) / 64
  match f q (s.queue q) with
  | some t => t.respond m 0 []
  | none => s.respond m 4 []

/-- QCTL_BIND (R412): the queue is STOPPED until START. -/
def execQctlBind (s : State) : Out :=
  .next (s.onMessage .qctlBind fun s m => s.qctl m fun q x =>
    if x.st = .unbound then
      some (s.modQueue q fun y => { y with st := .stopped, ctx := bitsOf m.value 13 8, rank := bitsOf m.value 18 16, ringnext := 0 })
    else none)

/-- QCTL_START (R412). -/
def execQctlStart (s : State) : Out :=
  .next (s.onMessage .qctlStart fun s m => s.qctl m fun q x =>
    if x.st = .stopped then some (s.modQueue q fun y => { y with st := .running }) else none)

/-- QCTL_HOLD (R412). -/
def execQctlHold (s : State) : Out :=
  .next (s.onMessage .qctlHold fun s m => s.qctl m fun q x =>
    if x.st = .running then some (s.modQueue q fun y => { y with st := .held }) else none)

/-- QCTL_RELEASE (R412). -/
def execQctlRelease (s : State) : Out :=
  .next (s.onMessage .qctlRelease fun s m => s.qctl m fun q x =>
    if x.st = .held then some (s.modQueue q fun y => { y with st := .running }) else none)

/-- QCTL_UNBIND (R412): only an empty queue; its handles are released. -/
def execQctlUnbind (s : State) : Out :=
  .next (s.onMessage .qctlUnbind fun s m => s.qctl m fun q x =>
    if x.st != .unbound && x.fifo.isEmpty && x.spill.isEmpty && x.cur.isEmpty then
      let s := s.modQueue q fun y => { y with st := .unbound, handles := [] }
      some (x.handles.foldl (fun s h => s.unref h.2) s)
    else none)

/-- PWRCTL_WRITE (R416). -/
def execPwrctlWrite (s : State) : Out :=
  .next (s.onMessage .pwrctlWrite fun s m =>
    let v := m.value % 2 ^ 11
    if 500 ≤ v ∧ v ≤ 2000 then ({ s with hub := { s.hub with pwrctl := v } }).respond m 0 [] else s.respond m 4 [])

/-! ## QAPPEND, MEMRD, MEMWR, PANCTL (R411) -/

/-- QAPPEND (R411): taken once every earlier request of its source has been performed (13 R351). -/
def execQappend (s : State) : Out :=
  .next (s.onMessage .qappend fun s m =>
    if s.sourceBusy m.src then s
    else
      let q := m.addr % 2 ^ 7
      let x := s.queue q
      let p : Packet := ⟨(List.range 128).map fun i => m.data.getD i 0, none, false, none⟩
      if x.st = .unbound then s.respond m 5 []
      else
        match s.joinQueue q p with
        | some t => t.respond m (if x.st = .stopped then 3 else 0) []
        | none => s.respond m 2 [])

/-- The walks of a memory request reach their tables: it waits until all of them perform (09 R235, R236). -/
def State.reachMsg (s : State) (m : Msg) : State × Bool :=
  s.reachAll m.ctx ((cutPieces 64 (m.len / 64 + 2) 0 m.addr m.len).map fun p => p.2.1)

/-- The accesses of a memory request: one per line, with their translations; none where one of them faults. -/
def State.hostLines (s : State) (m : Msg) (write : Bool) : Option (List (Nat × Nat × Trans)) :=
  (cutPieces 64 (m.len / 64 + 2) 0 m.addr m.len).foldr (fun p l =>
    match l, s.translate m.ctx p.2.1 write with
    | some l, .ok t => some ((p.1, p.2.2, t) :: l)
    | _, _ => none) (some [])

/-- A memory request enters its source's ingress FIFO (13 R350): one entry for each of its accesses. -/
def State.startReq (s : State) (m : Msg) (write : Bool) (org : Option Origin) (amo : Option (Nat × List Byte)) (entryWrites : Bool)
    (l : List (Nat × Nat × Trans)) : State :=
  let n := s.reqs.foldl (fun n r => max n (r.1 + 1)) 0
  let es := l.map fun p =>
    (⟨.source m.src n, entryWrites, p.1, p.2.2.pa, p.2.1, (m.data.drop p.1).take p.2.1, none, p.2.2, m.ctx⟩ : LEntry)
  { s with
    hostIn := s.hostIn.drop 1
    reqs := Tab.set s.reqs n ⟨m.via, m.src, m.tag, write, m.len, l.length, [], write && amo.isNone && m.poison, org, false, m.ctx, amo, false⟩
    ingress := Tab.put [] s.ingress m.src (Tab.get [] s.ingress m.src ++ es) }

/-- A request of a direction whose accesses have all been performed is answered; with XLATE where one of them found its group
freed. -/
def State.answerReq (s : State) (write : Bool) : Option State :=
  (s.reqs.find? fun r => r.2.write == write && r.2.left == 0).map fun r =>
    let x := r.2
    let data := if write && x.amo.isNone then [] else x.oldBytes
    let answer := if x.fault then .resp x.src x.tag 1 false [] else .resp x.src x.tag 0 (!write && x.poisoned) data
    { s with reqs := s.reqs.erase r.1, out := s.out ++ [answer] }

/-- MEMRD (R411): a request whose reads are done is answered; else the next message begins. -/
def execMemrd (s : State) : Out :=
  match s.answerReq false with
  | some t => .next t
  | none =>
    .next (s.onMessage .memrd fun s m =>
      if !(s.context m.ctx).en then s.respond m 5 []
      else
        match s.reachMsg m with
        | (s, false) => s
        | (s, true) =>
          match s.hostLines m false with
          | none => s.respond m 1 []
          | some l => s.startReq m false none none false l)

/-- The writes of a message begin: with POISON one origin for the whole message, from the log of its context (14 R369). -/
def State.beginWrite (s : State) (m : Msg) (l : List (Nat × Nat × Trans)) : State :=
  if m.poison then
    let (o, s) := s.hubOrigin m.ctx kHOSTINJECT ⟨0, 0, 9, 0, false, 0, 0, m.addr + 2 ^ 51⟩
    s.startReq m true (some o) none true l
  else s.startReq m true none none true l

/-- The first address of a message that does not translate, with its fault code. -/
def State.hostFault (s : State) (m : Msg) : Option (Nat × Nat) :=
  (cutPieces 64 (m.len / 64 + 2) 0 m.addr m.len).findSome? fun p =>
    match s.translate m.ctx p.2.1 true with
    | .error e => some (p.2.1, e)
    | .ok _ => none

/-- The PUT of another package at the head of the input (16 R415): it is written as a MEMWR, but a translation fault of it is
replayable (09 R232): it is held, with what its port brings from that node after it. -/
def State.takePut (s : State) (m : Msg) : State :=
  match s.hostLines m true with
  | some l => s.beginWrite m l
  | none =>
    if s.ufaults.any fun f => f.ctx == m.ctx then s.respond m 1 []
    else
      let t := { s with hostIn := s.hostIn.drop 1, putsHeld := m :: s.putsHeld }
      match s.hostFault m with
      | some (va, e) => t.replayable (.remote m.via m.src) m.ctx va e
      | none => t

/-- A held PUT is taken again, once the host has resumed its fault: the oldest of its port and node. -/
def State.retryPut (s : State) : Option State :=
  (s.putsHeld.find? fun m => s.heldPut (.remote m.via m.src) == some m && !s.heldBy (.remote m.via m.src)).map fun m =>
    match s.reachMsg m with
    | (s, false) => s
    | (s, true) => ({ s with putsHeld := removeFirst m s.putsHeld, hostIn := m :: s.hostIn }).takePut m

/-- A fabric atomic (13 R345): 4 or 8 bytes at their own alignment, FADD of 4 bytes. On a SYSATOM page it is one entry; else its reads
of 4 bytes go ahead of its writes. One of another shape answers as one whose translation faults (log 38: DESIGN CHOICE). -/
def State.takeAtomic (s : State) (m : Msg) (op : Nat) : State :=
  if !((m.len == 4 || (m.len == 8 && op != 1)) && m.addr % m.len == 0) then s.respond m 1 []
  else
    match s.translate m.ctx m.addr true with
    | .error _ => s.respond m 1 []
    | .ok t =>
      if t.sysatom then s.startReq m true none (some (op, m.data)) true [(0, m.len, t)]
      else s.startReq m true none (some (op, m.data)) false
        ((List.range (m.len / 4)).map fun i => (4 * i, 4, { t with va := t.va + 4 * i, pa := t.pa + 4 * i }))

/-- MEMWR (R411), with which the writes of another package's PUT and fabric atomics come (R415; 13 R345). -/
def execMemwr (s : State) : Out :=
  match s.answerReq true with
  | some t => .next t
  | none =>
    match s.retryPut with
    | some t => .next t
    | none =>
      .next (s.onMessage .memwr fun s m =>
        if !(s.context m.ctx).en then s.respond m 5 []
        else if m.put && m.amo.isNone && (s.heldPut (.remote m.via m.src)).isSome then
          { s with hostIn := s.hostIn.drop 1, putsHeld := s.putsHeld ++ [m] }
        else
          match s.reachMsg m with
          | (s, false) => s
          | (s, true) =>
            match m.amo with
            | some op => s.takeAtomic m op
            | none =>
              if m.put then s.takePut m
              else
                match s.hostLines m true with
                | none => s.respond m 1 []
                | some l => s.beginWrite m l)

/-- A PANCTL message whose groups are ready is answered. -/
def State.answerPan (s : State) : Option State :=
  (s.hub.panReqs.find? fun r => if r.alloc then s.allocated r.groups else s.allQuiet r.groups).map fun r =>
    let s := if r.alloc then s else s.freeGroups r.groups
    { s with
      hub := { s.hub with panReqs := removeFirst r s.hub.panReqs }
      out := s.out ++ [.resp r.src r.tag 0 false []] }

/-- Bytes 17 to 19 and 24 to 31 of the packet form are reserved (15 R402). A message that sets one answers 0x11, as the packet
does (log 79: DESIGN CHOICE, R411 names no status for it). -/
def Msg.panReserved (m : Msg) : Bool := field m.data 1 3 != 0 || field m.data 8 8 != 0

/-- FABRIC_PANCTL (R411; 15 R402): a message in progress completes; else the next one begins. PHASE is applied at once. -/
def execFabricPanctl (s : State) : Out :=
  match s.answerPan with
  | some t => .next t
  | none =>
    .next (s.onMessage .fabricPanctl fun s m =>
      let g := field m.data 4 4
      let wait := fun (s : State) (alloc : Bool) =>
        { s with hostIn := s.hostIn.drop 1, hub := { s.hub with panReqs := s.hub.panReqs ++ [⟨m.src, m.tag, alloc, g, m.via, m.ctx⟩] } }
      if m.panReserved then s.respond m 0x11 []
      else match field m.data 0 1 with
      | 0 => if (s.panWrong g true).isSome then s.respond m 0x60 [] else wait (s.allocGroups m.ctx g) true
      | 1 => if (s.panWrong g false).isSome then s.respond m 0x60 [] else wait s false
      | 2 => if phaseBad (field m.data 16 8) then s.respond m 0x11 [] else (s.applyPhase m.ctx (BitVec.ofNat 42 (field m.data 16 8))).respond m 0 []
      | _ => s.respond m 0x11 [])

end Sys2Proof.Machine
end

