-- ==== Sys2Proof/Machine/Manage.lean ====
section
/-! DEFINITION. Attestation, key delivery, management and bring-up (16 R417-R421; 14 R360, R384; 06 R166, R168). -/

namespace Sys2Proof.Machine

/-! ## Attestation (R418) -/

/-- A report's bytes 0 to 383, without TIME. -/
def Hub.reportHead (h : Hub) : List Byte :=
  leBytes 4 0x4154_5447 ++ leBytes 2 1 ++ leBytes 2 0 ++ leBytes 4 30176 ++ leBytes 4 384
    ++ (List.range 4).flatMap (fun i => leBytes 8 (Tab.get 0 h.nonce i).toNat)
    ++ leBytes 4 h.nodeid.toNat ++ leBytes 4 0 ++ leBytes 8 Config.devfeat.toNat ++ leBytes 8 Config.devhash.toNat ++ leBytes 8 0
    ++ leBytes 4 h.ncode ++ leBytes 44 0 ++ Config.bootRomDigest.toList ++ Config.firmwareDigest.toList ++ h.chainNow
    ++ Config.identityPublic.toList

/-- ATTCTL_START (R418): a write to ATTCTL, refused while START reads 1; of START = 1 the nonce and the measurements are taken as they
stand. -/
def execAttctlStart (s : State) : Out :=
  .next (s.onMessage .attctlStart fun s m =>
    if s.hub.attBusy then s.respond m 4 []
    else if m.value % 2 = 0 then s.respond m 0 []
    else
      ({ s with hub := { s.hub with attBusy := true, attReady := false, attFail := false, report := s.hub.reportHead } }).respond m 0 [])

/-- A report with its TIME. -/
def stamped (r : List Byte) (time : Nat) : List Byte := r.take 72 ++ leBytes 8 time ++ r.drop 80

/-- ATTESTATION_REPORT_DONE (R418): the signed report; or, where the identity key fails its self-test, the header alone. -/
def execAttestationReportDone (s : State) : Out :=
  if s.hub.attBusy then
    let r := stamped s.hub.report s.hub.time
    if Config.identityOk s.hub.time then
      .next { s with hub := { s.hub with attBusy := false, attReady := true, report := r ++ (Config.sign r).toList } }
    else .next { s with hub := { s.hub with attBusy := false, attFail := true, report := r } }
  else .next s

/-! ## Keys (R420) -/

/-- The context of a key window. -/
def Msg.keyCtx (m : Msg) : Nat := (m.cfgAddr - 0x5_0000) / 4096

/-- A write to a key window, refused while the context is enabled. -/
def State.keyWrite (s : State) (m : Msg) (f : Nat → State) : State :=
  if (s.context m.keyCtx).en then s.respond m 4 [] else (f m.keyCtx).respond m 0 []

/-- KEMCT_WRITE (R420). -/
def execKemctWrite (s : State) : Out :=
  .next (s.onMessage .kemctWrite fun s m =>
    s.keyWrite m fun n => s.modCtx n fun c => { c with kemct := Tab.set c.kemct (m.cfgAddr % 4096 / 8) (wordOf m.value) })

/-- The keys of a context from the shared secret: data, tweak, tag. -/
def deriveKeys (secret : List Byte) (ctx : Nat) : List Byte :=
  [2, 3, 4].flatMap fun i => (Config.shake256 32 (secret ++ leBytes 1 ctx ++ leBytes 1 i)).toList

/-- INSTALL: with every word of KEMCT written since the last command, the keys of the decapsulated secret; else FAILED. -/
def Ctx.install (c : Ctx) (n : Nat) : Ctx :=
  if (List.range 196).all fun i => (Tab.get? c.kemct i).isSome then
    let secret := (Config.kemDecapsulate ((List.range 196).flatMap fun i => leBytes 8 (Tab.get 0 c.kemct i).toNat)).toList
    { c with
      kemct := [], keySt := 1, keys := deriveKeys secret n
      keyid := wordOf (leNat (Config.shake256 8 (secret ++ leBytes 1 1)).toList) }
  else { c with kemct := [], keySt := 2 }

/-- INSTALL, with the keys known by the tag that they make. -/
def State.installKeys (s : State) (n : Nat) : State :=
  let s := s.modCtx n fun c => c.install n
  if (s.context n).keySt = 1 then { s with hub := { s.hub with keyring := Tab.set s.hub.keyring (s.ctxTag n) (s.context n).keys } } else s

/-- KEYCTL_INSTALL (R420). -/
def execKeyctlInstall (s : State) : Out :=
  .next (s.onMessage .keyctlInstall fun s m => s.keyWrite m s.installKeys)

/-- KEYCTL_ERASE (R420). -/
def execKeyctlErase (s : State) : Out :=
  .next (s.onMessage .keyctlErase fun s m => s.keyWrite m fun n => s.modCtx n fun c => { c with kemct := [], keySt := 0, keyid := 0, keys := [] })

/-! ## Management (R421) -/

/-- The command at the head of management's input, done. -/
def State.onMgmt (s : State) (f : Mgmt → Option State) : State :=
  match s.mgmtIn with
  | [] => s
  | c :: rest =>
    match f c with
    | some t => { t with mgmtIn := rest }
    | none => s

/-- NODEID_WRITE (R421). -/
def execNodeidWrite (s : State) : Out :=
  .next (s.onMgmt fun c => match c with | .nodeid v => some { s with hub := { s.hub with nodeid := v } } | _ => none)

/-- MGMT_STATUS_READ (R421): power, temperature and the counts. -/
def execMgmtStatusRead (s : State) : Out :=
  let t := s.hub.time
  .next { s with out := s.out ++ [.mgmt (Config.managementReading (2 * t)) (Config.managementReading (2 * t + 1))
    ((List.range 4).map (Tab.get 0 s.hub.counts))] }

/-- The debug stops end, and the hard stops (06 R166, R168). -/
def State.endStops (s : State) : State :=
  { s with
    kerns := s.kerns.map fun (k : Kern) => if k.ctl.wait = .debug then { k with ctl := { k.ctl with wait := .none } } else k
    doms := s.doms.map fun d => (d.1, { d.2 with hard := false }) }

/-- DEBUG_CLAIM (R421): debug and breakpoints are claimed; giving up debug ends the stops. -/
def execDebugClaim (s : State) : Out :=
  .next (s.onMgmt fun c =>
    match c with
    | .claim debug brk =>
      let t := { s with hub := { s.hub with debug := debug, brk := brk } }
      some (if debug then t else t.endStops)
    | _ => none)

/-- SINGLE_STEP_ARM (R421; 14 R360): the core is armed, whichever kernels it has or will have. -/
def execSingleStepArm (s : State) : Out :=
  .next (s.onMgmt fun c =>
    match c with
    | .step core on => some (s.modCore core fun x => { x with stepArm := on })
    | _ => none)

/-- HARD_STOP_REQUEST (R421; 06 R168). -/
def execHardStopRequest (s : State) : Out :=
  .next (s.onMgmt fun c =>
    match c with
    | .hardStop t ls => some { s with hub := { s.hub with hardStops := s.hub.hardStops ++ [(t, ls)] } }
    | _ => none)

/-- A setting within its range (09 R236; 14 R371; 15 R399; 16 R415). -/
def Hub.set (h : Hub) (p : MgmtParam) (v : Nat) : Hub :=
  match p with
  | .coldIdle => if 10 ≤ v ∧ v ≤ 1000000 then { h with coldIdle := v } else h
  | .scrubInterval => if 1 ≤ v ∧ v ≤ 168 then { h with scrubInterval := v } else h
  | .preemptWait => if 10 ≤ v ∧ v ≤ 1000000 then { h with preemptWait := v } else h
  | .linkTo => { h with linkTo := v }

/-- MGMT_PARAMETER_SET (R421). -/
def execMgmtParameterSet (s : State) : Out :=
  .next (s.onMgmt fun c => match c with | .set p v => some { s with hub := s.hub.set p v } | _ => none)

/-- CORE_RETURNED_TO_SERVICE (14 R384). -/
def execCoreReturnedToService (s : State) : Out :=
  .next (s.onMgmt fun c =>
    match c with
    | .service core =>
      some (({ s with hub := { s.hub with outOfService := s.hub.outOfService.filter (· != core) } }).modCore core fun x => { x with retired := false })
    | _ => none)

/-! ## Bring-up and test (R421) -/

/-- RESET_RELEASE (R421 steps 1 to 3; R417): the boot ROM verifies the firmware. -/
def execResetRelease (s : State) : Out :=
  if s.hub.up then .next s else .next { s with hub := { s.hub with up := true, verified := Config.firmwareVerifies } }

/-- LINK_TRAINING_DONE (R421 steps 5 and 6): TIME is synchronised, and the host is sent EVENT 0x05 with PHASE 0. -/
def execLinkTrainingDone (s : State) : Out :=
  if s.hub.up && !s.hub.linksUp then
    .next { s with hub := { s.hub with linksUp := true, timeSynced := true }, out := s.out ++ [.event 0x05 0 0 0 []] }
  else .next s

/-- BOUNDARY_SCAN_ACCESS (R421): the port is disabled while a context is enabled; the manual gives an access no effect on the
state of the machine. -/
def execBoundaryScanAccess (s : State) : Out := .next s

end Sys2Proof.Machine
end

