-- ==== Sys2Proof/Machine/Fault.lean ====
section
/-! DEFINITION. Uncontained faults as the hub handles them (14 R381-R383; 15 R386, R389). -/

namespace Sys2Proof.Machine

/-- The fault record (R383). -/
def State.faultRecord (s : State) (f : UFault) : List Byte :=
  let (core, gang) := match f.k with
    | some k => ((s.kern k).core, (s.kern k).coordNat)
    | none => (0, 0)
  leBytes 8 s.hub.time ++ leBytes 1 f.code ++ leBytes 1 f.cause ++ leBytes 2 f.torig.toNat ++ leBytes 2 f.tpc.toNat ++ leBytes 1 core
    ++ leBytes 1 0 ++ leBytes 8 f.tval.toNat ++ leBytes 8 f.sig1.toNat ++ leBytes 8 f.sig2.toNat ++ leBytes 2 gang ++ leBytes 22 0

/-- An agent acts for a context's kernels. -/
def State.agentOf (s : State) (ctx : Nat) (a : Agent) : Bool :=
  match a with
  | .port c seq => ((s.core c).port.find? fun x => x.seq == seq).any fun x => (s.kern x.kid).ctx == ctx
  | .engine k _ _ => (s.kern k).ctx == ctx
  | _ => false

/-- The accesses of a context's cores and engines that have not been performed are discarded (step 3). -/
def State.dropAccesses (s : State) (ctx : Nat) : State :=
  let keep := fun (e : LEntry) => !s.agentOf ctx e.agent
  let lines := (s.lines.map fun l => (l.1, l.2.filter keep)).filter fun l => !l.2.isEmpty
  let stay := fun (x : PItem) => (s.kern x.kid).ctx != ctx
  { s with lines := lines, cores := s.cores.map fun c => (c.1, { c.2 with port := dropFences false (c.2.port.filter stay) }) }

/-- A requester belongs to a context's kernels or launches. -/
def State.requesterOf (s : State) (ctx : Nat) (f : RFault) : Bool :=
  match f.req with
  | .port _ | .remote _ _ => f.ctx == ctx
  | .engine k _ => (s.kern k).ctx == ctx
  | .placement l => (match s.launch? l with | some x => x.ctx == ctx | none => false)
  | .queue _ => false

/-- The launches of a context leave their cores, and every engine port with them (steps 3 and 4). -/
def State.dropLaunches (s : State) (ctx : Nat) : State :=
  let mine := s.launches.filter fun l => l.2.ctx == ctx
  let s := { s with
    rfaults := s.rfaults.filter fun f => !s.requesterOf ctx f
    recvs := s.recvs.filter fun v => !mine.any fun l => l.1 == v.k / 256 }
  let s := mine.foldl (fun s l => (s.vacate l.1).cleanCores l.2.cores) s
  { s with
    launches := s.launches.filter fun l => l.2.ctx != ctx
    hub := { s.hub with
      victims := s.hub.victims.filter fun v => !mine.any fun l => l.1 == v
      preempts := s.hub.preempts.filter fun p => (s.dom? p.2).isSome } }

/-- A packet under way ends with LAUNCHFAULT and the code (step 5). -/
def PkRun.fail (code : Nat) (r : PkRun) : PkRun :=
  match r.phase with
  | .done _ _ _ => r
  | _ => { r with phase := .done 0x40 code 0 }

/-- The queues of a context stop (step 5). -/
def State.stopContext (s : State) (ctx code : Nat) : State :=
  (List.range 128).foldl (fun s q =>
    let x := s.queue q
    if x.st != .unbound && x.ctx == ctx then (s.modQueue q fun y => { y with cur := y.cur.map (PkRun.fail code) }).stopQueue q else s) s

/-- UNCONTAINED_FAULT (R382): the oldest fault, with T the TIME of this step, and what else of its context has come by then: of their
records a later one overwrites an earlier one (R383), and each has its EVENT. -/
def execUncontainedFault (s : State) : Out :=
  match s.ufaults with
  | [] => .next s
  | f :: rest =>
    let more := rest.filter fun g => g.ctx == f.ctx
    let write := s.hubWrite f.ctx ((s.context f.ctx).logaddr.toNat + 64 * 0x7FFF) (s.faultRecord (more.getLastD f))
    match write with
    | .ok (t, false) => .next t
    | _ =>
      let s := match write with | .ok (t, _) => t | .error _ => s
      let s : State := { s with
        ufaults := rest.filter (fun g => g.ctx != f.ctx), out := s.out ++ (f :: more).map fun g => .event 0x04 f.ctx g.code 0 [] }
      let s := (s.dropAccesses f.ctx).dropLaunches f.ctx
      .next (s.stopContext f.ctx f.code)

end Sys2Proof.Machine
end

