-- ==== Sys2Proof/Machine/Dispatch.lean ====
section
/-! DEFINITION. The meaning of every row of the opcode table: one arm per instruction, each one call. -/

namespace Sys2Proof.Machine

/-- One instruction: a slot operation of the bundle in mid-issue, or an event of the machine. -/
def exec (i : Instr) (s : State) : Host.Outcome State Fault Refusal :=
  match i with
  | .bundleIssue k => Sys2Proof.Machine.execBundleIssue k s
  | .resultWriteback k => Sys2Proof.Machine.execResultWriteback k s
  | .mldDataLand k j => Sys2Proof.Machine.execMldDataLand k j s
  | .fpTrap k => Sys2Proof.Machine.execFpTrap k s
  | .step k => Sys2Proof.Machine.execStep k s
  | .cui k => Sys2Proof.Machine.execCui k s
  | .syncRestart d => Sys2Proof.Machine.execSyncRestart d s
  | .yieldDecision site => Sys2Proof.Machine.execYieldDecision site s
  | .loopPass k => Sys2Proof.Machine.execLoopPass k s
  | .throttleBlock d => Sys2Proof.Machine.execThrottleBlock d s
  | .preemptionPointStop k => Sys2Proof.Machine.execPreemptionPointStop k s
  | .contextSave l => Sys2Proof.Machine.execContextSave l s
  | .contextRestore l ch => Sys2Proof.Machine.execContextRestore l ch s
  | .overrun d => Sys2Proof.Machine.execOverrun d s
  | .xentryArrival k => Sys2Proof.Machine.execXentryArrival k s
  | .streamFetch k st => Sys2Proof.Machine.execStreamFetch k st s
  | .streamStoreWrite k => Sys2Proof.Machine.execStreamStoreWrite k s
  | .bankWakeDone k => Sys2Proof.Machine.execBankWakeDone k s
  | .matrixResultValid k => Sys2Proof.Machine.execMatrixResultValid k s
  | .wldGranuleWrite k => Sys2Proof.Machine.execWldGranuleWrite k s
  | .accstDelivery k => Sys2Proof.Machine.execAccstDelivery k s
  | .storeLeave c j => Sys2Proof.Machine.execStoreLeave c j s
  | .loadSend c j => Sys2Proof.Machine.execLoadSend c j s
  | .linePerform ln => Sys2Proof.Machine.execLinePerform ln s
  | .engineAccess k e j => Sys2Proof.Machine.execEngineAccess k e j s
  | .ingressMove src j => Sys2Proof.Machine.execIngressMove src j s
  | .pageWalk j => Sys2Proof.Machine.execPageWalk j s
  | .panIdle g => Sys2Proof.Machine.execPanIdle g s
  | .panRetain g => Sys2Proof.Machine.execPanRetain g s
  | .panWakeDone g => Sys2Proof.Machine.execPanWakeDone g s
  | .panInitDone g => Sys2Proof.Machine.execPanInitDone g s
  | .scrubSweep g => Sys2Proof.Machine.execScrubSweep g s
  | .originReservationRefill c => Sys2Proof.Machine.execOriginReservationRefill c s
  | .segmentCommit k => Sys2Proof.Machine.execSegmentCommit k s
  | .segmentRewind k => Sys2Proof.Machine.execSegmentRewind k s
  | .rerunCompare k => Sys2Proof.Machine.execRerunCompare k s
  | .copyTransferStart k e => Sys2Proof.Machine.execCopyTransferStart k e s
  | .expandBundleWrite k e => Sys2Proof.Machine.execExpandBundleWrite k e s
  | .copyComplete k e => Sys2Proof.Machine.execCopyComplete k e s
  | .keyStep cl => Sys2Proof.Machine.execKeyStep cl s
  | .keyOpComplete k => Sys2Proof.Machine.execKeyOpComplete k s
  | .circOpStart k => Sys2Proof.Machine.execCircOpStart k s
  | .sectionFetchDone k => Sys2Proof.Machine.execSectionFetchDone k s
  | .circuitStep k => Sys2Proof.Machine.execCircuitStep k s
  | .circuitGroupDone k => Sys2Proof.Machine.execCircuitGroupDone k s
  | .circOpComplete k => Sys2Proof.Machine.execCircOpComplete k s
  | .linkMessageArrival die port => Sys2Proof.Machine.execLinkMessageArrival die port s
  | .linkOpComplete k => Sys2Proof.Machine.execLinkOpComplete k s
  | .linkTimeout k => Sys2Proof.Machine.execLinkTimeout k s
  | .pause die port => Sys2Proof.Machine.execPause die port s
  | .resume die port => Sys2Proof.Machine.execResume die port s
  | .flitReplay die port => Sys2Proof.Machine.execFlitReplay die port s
  | .portDown die port => Sys2Proof.Machine.execPortDown die port s
  | .gangPlacement l ch => Sys2Proof.Machine.execGangPlacement l ch s
  | .domainStart d => Sys2Proof.Machine.execDomainStart d s
  | .launchEnd l => Sys2Proof.Machine.execLaunchEnd l s
  | .packetCompletion q => Sys2Proof.Machine.execPacketCompletion q s
  | .nopq q => Sys2Proof.Machine.execNopq q s
  | .launch q => Sys2Proof.Machine.execLaunch q s
  | .load q => Sys2Proof.Machine.execLoad q s
  | .unload q => Sys2Proof.Machine.execUnload q s
  | .waitval q => Sys2Proof.Machine.execWaitval q s
  | .waitvalReread q => Sys2Proof.Machine.execWaitvalReread q s
  | .signal q => Sys2Proof.Machine.execSignal q s
  | .barrier q => Sys2Proof.Machine.execBarrier q s
  | .xlateinv q => Sys2Proof.Machine.execXlateinv q s
  | .panctlAlloc q => Sys2Proof.Machine.execPanctlAlloc q s
  | .panctlFree q => Sys2Proof.Machine.execPanctlFree q s
  | .panctlPhase q => Sys2Proof.Machine.execPanctlPhase q s
  | .nop o => Sys2Proof.Machine.execNop o s
  | .br o => Sys2Proof.Machine.execBr o s
  | .jmp o => Sys2Proof.Machine.execJmp o s
  | .call o => Sys2Proof.Machine.execCall o s
  | .callr o => Sys2Proof.Machine.execCallr o s
  | .ret o => Sys2Proof.Machine.execRet o s
  | .loop o => Sys2Proof.Machine.execLoop o s
  | .lbrk o => Sys2Proof.Machine.execLbrk o s
  | .sync o => Sys2Proof.Machine.execSync o s
  | .yield o => Sys2Proof.Machine.execYield o s
  | .waitx o => Sys2Proof.Machine.execWaitx o s
  | .waito o => Sys2Proof.Machine.execWaito o s
  | .waitb o => Sys2Proof.Machine.execWaitb o s
  | .fenceFull o => Sys2Proof.Machine.execFenceFull o s
  | .fenceStore o => Sys2Proof.Machine.execFenceStore o s
  | .fenceLoad o => Sys2Proof.Machine.execFenceLoad o s
  | .ifence o => Sys2Proof.Machine.execIfence o s
  | .bswp o => Sys2Proof.Machine.execBswp o s
  | .trap o => Sys2Proof.Machine.execTrap o s
  | .rft o => Sys2Proof.Machine.execRft o s
  | .brk o => Sys2Proof.Machine.execBrk o s
  | .halt o => Sys2Proof.Machine.execHalt o s
  | .qpost o => Sys2Proof.Machine.execQpost o s
  | .cuienOn o => Sys2Proof.Machine.execCuienOn o s
  | .cuienOff o => Sys2Proof.Machine.execCuienOff o s
  | .add o => Sys2Proof.Machine.execAdd o s
  | .sub o => Sys2Proof.Machine.execSub o s
  | .mul o => Sys2Proof.Machine.execMul o s
  | .mulh o => Sys2Proof.Machine.execMulh o s
  | .mulhn o => Sys2Proof.Machine.execMulhn o s
  | .div o => Sys2Proof.Machine.execDiv o s
  | .divn o => Sys2Proof.Machine.execDivn o s
  | .rem o => Sys2Proof.Machine.execRem o s
  | .remn o => Sys2Proof.Machine.execRemn o s
  | .and o => Sys2Proof.Machine.execAnd o s
  | .or o => Sys2Proof.Machine.execOr o s
  | .xor o => Sys2Proof.Machine.execXor o s
  | .andn o => Sys2Proof.Machine.execAndn o s
  | .shl o => Sys2Proof.Machine.execShl o s
  | .shr o => Sys2Proof.Machine.execShr o s
  | .sar o => Sys2Proof.Machine.execSar o s
  | .rot o => Sys2Proof.Machine.execRot o s
  | .min o => Sys2Proof.Machine.execMin o s
  | .max o => Sys2Proof.Machine.execMax o s
  | .minn o => Sys2Proof.Machine.execMinn o s
  | .maxn o => Sys2Proof.Machine.execMaxn o s
  | .clz o => Sys2Proof.Machine.execClz o s
  | .popc o => Sys2Proof.Machine.execPopc o s
  | .bext o => Sys2Proof.Machine.execBext o s
  | .bins o => Sys2Proof.Machine.execBins o s
  | .sext o => Sys2Proof.Machine.execSext o s
  | .sel o => Sys2Proof.Machine.execSel o s
  | .mov o => Sys2Proof.Machine.execMov o s
  | .cmp o => Sys2Proof.Machine.execCmp o s
  | .plog o => Sys2Proof.Machine.execPlog o s
  | .fadd o => Sys2Proof.Machine.execFadd o s
  | .fsub o => Sys2Proof.Machine.execFsub o s
  | .fmul o => Sys2Proof.Machine.execFmul o s
  | .ffma o => Sys2Proof.Machine.execFfma o s
  | .ffms o => Sys2Proof.Machine.execFfms o s
  | .fdiv o => Sys2Proof.Machine.execFdiv o s
  | .fsqrt o => Sys2Proof.Machine.execFsqrt o s
  | .fmin o => Sys2Proof.Machine.execFmin o s
  | .fmax o => Sys2Proof.Machine.execFmax o s
  | .fcmp o => Sys2Proof.Machine.execFcmp o s
  | .fcvt o => Sys2Proof.Machine.execFcvt o s
  | .fclass o => Sys2Proof.Machine.execFclass o s
  | .fsgn o => Sys2Proof.Machine.execFsgn o s
  | .ptest o => Sys2Proof.Machine.execPtest o s
  | .porig o => Sys2Proof.Machine.execPorig o s
  | .pchk o => Sys2Proof.Machine.execPchk o s
  | .psan o => Sys2Proof.Machine.execPsan o s
  | .chkeq o => Sys2Proof.Machine.execChkeq o s
  | .mfs o => Sys2Proof.Machine.execMfs o s
  | .mts o => Sys2Proof.Machine.execMts o s
  | .mld o => Sys2Proof.Machine.execMld o s
  | .mst o => Sys2Proof.Machine.execMst o s
  | .amo o => Sys2Proof.Machine.execAmo o s
  | .red o => Sys2Proof.Machine.execRed o s
  | .vadd o => Sys2Proof.Machine.execVadd o s
  | .vsub o => Sys2Proof.Machine.execVsub o s
  | .vmul o => Sys2Proof.Machine.execVmul o s
  | .vfma o => Sys2Proof.Machine.execVfma o s
  | .vfms o => Sys2Proof.Machine.execVfms o s
  | .vfnma o => Sys2Proof.Machine.execVfnma o s
  | .vdiv o => Sys2Proof.Machine.execVdiv o s
  | .vsqrt o => Sys2Proof.Machine.execVsqrt o s
  | .vrcp o => Sys2Proof.Machine.execVrcp o s
  | .vrsq o => Sys2Proof.Machine.execVrsq o s
  | .vexp2 o => Sys2Proof.Machine.execVexp2 o s
  | .vlog2 o => Sys2Proof.Machine.execVlog2 o s
  | .vmin o => Sys2Proof.Machine.execVmin o s
  | .vmax o => Sys2Proof.Machine.execVmax o s
  | .vsgn o => Sys2Proof.Machine.execVsgn o s
  | .vcmp o => Sys2Proof.Machine.execVcmp o s
  | .vsel o => Sys2Proof.Machine.execVsel o s
  | .vclass o => Sys2Proof.Machine.execVclass o s
  | .viadd o => Sys2Proof.Machine.execViadd o s
  | .visub o => Sys2Proof.Machine.execVisub o s
  | .vimul o => Sys2Proof.Machine.execVimul o s
  | .vand o => Sys2Proof.Machine.execVand o s
  | .vor o => Sys2Proof.Machine.execVor o s
  | .vxor o => Sys2Proof.Machine.execVxor o s
  | .vshl o => Sys2Proof.Machine.execVshl o s
  | .vshr o => Sys2Proof.Machine.execVshr o s
  | .vsar o => Sys2Proof.Machine.execVsar o s
  | .vimin o => Sys2Proof.Machine.execVimin o s
  | .vimax o => Sys2Proof.Machine.execVimax o s
  | .vicmp o => Sys2Proof.Machine.execVicmp o s
  | .vcvt o => Sys2Proof.Machine.execVcvt o s
  | .vqnt o => Sys2Proof.Machine.execVqnt o s
  | .vdqt o => Sys2Proof.Machine.execVdqt o s
  | .vred o => Sys2Proof.Machine.execVred o s
  | .vscan o => Sys2Proof.Machine.execVscan o s
  | .vperm o => Sys2Proof.Machine.execVperm o s
  | .vbcast o => Sys2Proof.Machine.execVbcast o s
  | .vext o => Sys2Proof.Machine.execVext o s
  | .vins o => Sys2Proof.Machine.execVins o s
  | .mlog o => Sys2Proof.Machine.execMlog o s
  | .mpop o => Sys2Proof.Machine.execMpop o s
  | .mfirst o => Sys2Proof.Machine.execMfirst o s
  | .vld o => Sys2Proof.Machine.execVld o s
  | .vst o => Sys2Proof.Machine.execVst o s
  | .accrd o => Sys2Proof.Machine.execAccrd o s
  | .accwr o => Sys2Proof.Machine.execAccwr o s
  | .vmov o => Sys2Proof.Machine.execVmov o s
  | .vptest o => Sys2Proof.Machine.execVptest o s
  | .vpchk o => Sys2Proof.Machine.execVpchk o s
  | .vpsan o => Sys2Proof.Machine.execVpsan o s
  | .mma o => Sys2Proof.Machine.execMma o s
  | .mmag o => Sys2Proof.Machine.execMmag o s
  | .mconv o => Sys2Proof.Machine.execMconv o s
  | .gset o => Sys2Proof.Machine.execGset o s
  | .cset o => Sys2Proof.Machine.execCset o s
  | .wld o => Sys2Proof.Machine.execWld o s
  | .accz o => Sys2Proof.Machine.execAccz o s
  | .accst o => Sys2Proof.Machine.execAccst o s
  | .accld o => Sys2Proof.Machine.execAccld o s
  | .lend o => Sys2Proof.Machine.execLend o s
  | .lendRet o => Sys2Proof.Machine.execLendRet o s
  | .mwait o => Sys2Proof.Machine.execMwait o s
  | .ewr o => Sys2Proof.Machine.execEwr o s
  | .erd o => Sys2Proof.Machine.execErd o s
  | .egoCopy o => Sys2Proof.Machine.execEgoCopy o s
  | .egoMerge o => Sys2Proof.Machine.execEgoMerge o s
  | .egoInter o => Sys2Proof.Machine.execEgoInter o s
  | .egoExpand o => Sys2Proof.Machine.execEgoExpand o s
  | .egoHist o => Sys2Proof.Machine.execEgoHist o s
  | .egoPsum o => Sys2Proof.Machine.execEgoPsum o s
  | .egoHbuild o => Sys2Proof.Machine.execEgoHbuild o s
  | .egoHprobe o => Sys2Proof.Machine.execEgoHprobe o s
  | .egoRules o => Sys2Proof.Machine.execEgoRules o s
  | .egoNnz o => Sys2Proof.Machine.execEgoNnz o s
  | .egoCload o => Sys2Proof.Machine.execEgoCload o s
  | .egoEval o => Sys2Proof.Machine.execEgoEval o s
  | .egoPupd o => Sys2Proof.Machine.execEgoPupd o s
  | .egoPflip o => Sys2Proof.Machine.execEgoPflip o s
  | .egoCstat o => Sys2Proof.Machine.execEgoCstat o s
  | .egoLsend o => Sys2Proof.Machine.execEgoLsend o s
  | .egoLrecv o => Sys2Proof.Machine.execEgoLrecv o s
  | .egoLradd o => Sys2Proof.Machine.execEgoLradd o s
  | .ownGive o => Sys2Proof.Machine.execOwnGive o s
  | .ownTake o => Sys2Proof.Machine.execOwnTake o s
  | .xsend o => Sys2Proof.Machine.execXsend o s
  | .xrecv o => Sys2Proof.Machine.execXrecv o s
  | .tdef o => Sys2Proof.Machine.execTdef o s
  | .trd o => Sys2Proof.Machine.execTrd o s
  | .fmtset o => Sys2Proof.Machine.execFmtset o s
  | .spat o => Sys2Proof.Machine.execSpat o s
  | .srst o => Sys2Proof.Machine.execSrst o s
  | .srstClr o => Sys2Proof.Machine.execSrstClr o s
  | .bwph o => Sys2Proof.Machine.execBwph o s
  | .bpwrRetain o => Sys2Proof.Machine.execBpwrRetain o s
  | .bpwrWake o => Sys2Proof.Machine.execBpwrWake o s
  | .bufferWriteTakesEffect k => Sys2Proof.Machine.execBufferWriteTakesEffect k s
  | .arbiterGrant => Sys2Proof.Machine.execArbiterGrant s
  | .hardStop => Sys2Proof.Machine.execHardStop s
  | .preemptionRequest => Sys2Proof.Machine.execPreemptionRequest s
  | .fullPreemption => Sys2Proof.Machine.execFullPreemption s
  | .patrolScrub => Sys2Proof.Machine.execPatrolScrub s
  | .originEntryFill => Sys2Proof.Machine.execOriginEntryFill s
  | .hubBwphaseApply => Sys2Proof.Machine.execHubBwphaseApply s
  | .uncontainedFault => Sys2Proof.Machine.execUncontainedFault s
  | .qappend => Sys2Proof.Machine.execQappend s
  | .cfgrd => Sys2Proof.Machine.execCfgrd s
  | .cfgwr => Sys2Proof.Machine.execCfgwr s
  | .memrd => Sys2Proof.Machine.execMemrd s
  | .memwr => Sys2Proof.Machine.execMemwr s
  | .fabricPanctl => Sys2Proof.Machine.execFabricPanctl s
  | .ctxctlWrite => Sys2Proof.Machine.execCtxctlWrite s
  | .faultctlResume => Sys2Proof.Machine.execFaultctlResume s
  | .faultctlEnd => Sys2Proof.Machine.execFaultctlEnd s
  | .qctlBind => Sys2Proof.Machine.execQctlBind s
  | .qctlStart => Sys2Proof.Machine.execQctlStart s
  | .qctlHold => Sys2Proof.Machine.execQctlHold s
  | .qctlRelease => Sys2Proof.Machine.execQctlRelease s
  | .qctlUnbind => Sys2Proof.Machine.execQctlUnbind s
  | .pwrctlWrite => Sys2Proof.Machine.execPwrctlWrite s
  | .attctlStart => Sys2Proof.Machine.execAttctlStart s
  | .attestationReportDone => Sys2Proof.Machine.execAttestationReportDone s
  | .kemctWrite => Sys2Proof.Machine.execKemctWrite s
  | .keyctlInstall => Sys2Proof.Machine.execKeyctlInstall s
  | .keyctlErase => Sys2Proof.Machine.execKeyctlErase s
  | .nodeidWrite => Sys2Proof.Machine.execNodeidWrite s
  | .mgmtStatusRead => Sys2Proof.Machine.execMgmtStatusRead s
  | .debugClaim => Sys2Proof.Machine.execDebugClaim s
  | .singleStepArm => Sys2Proof.Machine.execSingleStepArm s
  | .hardStopRequest => Sys2Proof.Machine.execHardStopRequest s
  | .mgmtParameterSet => Sys2Proof.Machine.execMgmtParameterSet s
  | .resetRelease => Sys2Proof.Machine.execResetRelease s
  | .linkTrainingDone => Sys2Proof.Machine.execLinkTrainingDone s
  | .coreReturnedToService => Sys2Proof.Machine.execCoreReturnedToService s
  | .boundaryScanAccess => Sys2Proof.Machine.execBoundaryScanAccess s

end Sys2Proof.Machine
end

