-- ==== Sys2Proof/Machine/Run.lean ====
section
/-! DEFINITION. What happens next (06 R140; 01 R3): the slots of a bundle one by one; the events that a state forces before time
goes on; then what the world, a step of variable latency or the clock does. -/

namespace Sys2Proof.Machine

/-! ## The slots of a bundle (06 R140; 03 R62, R63) -/

/-- The next slot of the bundle in mid-issue: its instruction, UNDEF or ILLEGAL; after the last one the bundle ends. -/
def State.slotStep (s : State) : Out :=
  match nextSlot (bundleHeader s.issue.bundle) 7 s.issue.slot with
  | none => .next s.finishBundle
  | some j =>
    let t := { s with issue := { s.issue with slot := j } }
    match decodeSlot j (bundleSlot s.issue.bundle j) with
    | .ok i => exec i t
    | .undef => .next (t.stopSlot (.trap 0x01 t.slotWord 0))
    | .illegal => .next (t.stopSlot (.trap 0x02 t.slotWord 0))

/-! ## What a state forces -/

/-- What takes effect by itself at a core: delayed writes, results, wakes. -/
def Kern.landing (k : Kern) : Option Instr :=
  match k.dueWrite with
  | some (_, d) => some (d.kind.event k.kid)
  | none =>
    if !k.dueFlights.isEmpty then some (.resultWriteback k.kid)
    else if k.units.any fun u => wakeDue k.cyc u.2 then some (.bankWakeDone k.kid)
    else none

/-- An exchange entry arrives at a core whose domain counts (06 R158, R160). -/
def State.arrival (s : State) (k : Kern) : Option Instr :=
  if s.domRuns k.dom && (s.arriving k).isSome then some (.xentryArrival k.kid) else none

/-- A generator fetches (08 R217). -/
def State.fetching (s : State) (k : Kern) : Option Instr :=
  if s.coreRuns k || s.returning k then (k.streams.find? fun e => k.indexDue e.1 || k.fetchDue e.1).map fun e => .streamFetch k.kid e.1 else none

/-- A segment commits, rewinds, or is compared (14 R378, R379). -/
def State.segmentAct (s : State) (k : Kern) : Option Instr :=
  match k.seg with
  | none => none
  | some g =>
    let l := s.rewindSet k
    if k.ctl.dead then none
    else if k.inRerun && (s.segError k || (g.rerun == 2 && s.atClose k && k.landed)) then some (.rerunCompare k.kid)
    else if !k.inRerun && s.segError k then (if l.all Kern.inError && !l.all Kern.quiet then none else some (.segmentRewind k.kid))
    else if g.rerun == 1 && l.all fun y => s.atClose y && y.landed && !y.mismatch && (match y.seg with | some h => h.rerun == 1 | none => false) then
      some (.segmentRewind k.kid)
    else if !k.inRerun && s.closing k && k.landed && !k.mismatch then some (.segmentCommit k.kid)
    else none

/-- What a domain does by itself (06 R154; 15 R398). -/
def State.domainAct (s : State) (e : Nat × Dom) : Option Instr :=
  let (d, x) := e
  if x.restartDue && s.domRuns d && !x.frozen && !s.anyYield d then some (.syncRestart d)
  else if s.overruns d x then some (.overrun d)
  else none

/-- What a site does by itself (15 R397). -/
def State.siteForced (s : State) (e : Nat × Site) : Option Instr :=
  match s.siteAct e.2 with | .nothing => none | _ => some (.yieldDecision e.1)

/-- What the hub does at its TIME (06 R168, R169; 16 R416; 15 R399; 09 R234, R236). -/
def State.hubAct (s : State) : Option Instr :=
  if s.dueStop.isSome then some .hardStop
  else if s.hub.preempts.any fun e => decide (e.1 ≤ s.hub.time) then some .preemptionRequest
  else if !s.hub.victims.isEmpty then some .fullPreemption
  else if s.hub.up && decide (s.hub.nextGrant ≤ s.hub.time) then some .arbiterGrant
  else s.pans.findSome? s.panAct

/-- A core passes a boundary of its loop (06 R147). -/
def State.passes (s : State) (k : Kern) : Bool :=
  s.coreRuns k && k.ctl.boundary && !k.ctl.handler && k.ctl.gap == 0 && !k.ctl.halted && !k.ctl.stopped && k.ctl.wait == .none && !k.inError

/-- What a core does at its program counter (06 R140; 14 R359). -/
def State.coreAct (s : State) (k : Kern) : Option Instr :=
  if s.passes k then some (.loopPass k.kid)
  else
    match s.before k with
    | some e => some e
    | none => if s.atBundle k then some (.bundleIssue k.kid) else none

/-- The event that the state forces next, if any: what lands, then what fetches, then segments, domains, sites and the hub,
then what issues. -/
def State.due (s : State) : Option Instr :=
  (s.kerns.findSome? Kern.landing).orElse fun _ =>
  (s.kerns.findSome? s.arrival).orElse fun _ =>
  (s.kerns.findSome? s.fetching).orElse fun _ =>
  (s.kerns.findSome? s.segmentAct).orElse fun _ =>
  (s.doms.findSome? s.domainAct).orElse fun _ =>
  (s.sites.findSome? s.siteForced).orElse fun _ =>
  s.hubAct.orElse fun _ =>
  s.kerns.findSome? s.coreAct

/-! ## The step -/

/-- What happens where the state forces nothing: the next of the choices made beforehand, or a free one; it is a step of
variable latency, a message of the world, or a clock cycle. -/
def State.free (s : State) : Out :=
  match s.script with
  | some e :: rest => exec e { s with script := rest }
  | none :: rest => .next { s with script := rest }.tick
  | [] =>
    let (n, t) := s.choose
    match Config.chosen n with
    | some e => exec e t
    | none => .next t.tick

/-- One step. -/
def State.advance (s : State) : Out :=
  if s.issue.active then s.slotStep
  else
    match s.due with
    | some e => exec e s
    | none => s.free

/-! ## A bundle placed for the next step -/

/-- A kernel with all of a core, on core 0. -/
def standIn : Kern := Kern.fresh 0 0 0 0 1 1 ⟨512, 512, 256, 256, 16, 2, 8, 4⟩ false false false 0

/-- The state with kernel 0 on a core of its own, if it has none. -/
def State.withStandIn (s : State) : State :=
  if (s.kern? 0).isSome then s
  else { s with
    kerns := s.kerns ++ [standIn]
    doms := Tab.set s.doms 0 { Dom.new 0 0 (2 ^ 32 - 1) with started := true }
    sites := Tab.set s.sites 0 ⟨[0], some 0, 2 ^ 20, 0, none⟩ }

/-- Kernel 0 stands in mid-issue of a bundle at its program counter: its lowest present slot runs next. -/
def State.place (s : State) (b : BitVec 512) : State :=
  let t := s.withStandIn
  let k := t.kern 0
  let j := (nextSlot (bundleHeader b) 7 0).getD 0
  { t with issue := { Issue.none with active := true, kid := 0, bundle := b, addr := k.ctl.pc, slot := j, first := 0 } }

end Sys2Proof.Machine
end

