-- ==== Sys2Proof/Machine/Step.lean ====
section
/-! DEFINITION. The step of the machine, and a bundle placed where the next step runs it. -/

namespace Sys2Proof.Machine

/-- One step: `State.advance`. -/
def step (s : State) : Host.Outcome State Fault Refusal := s.advance

/-- The state with the bundle whose bits are `w` in mid-issue on kernel 0, so that the next step runs the instruction of its
lowest present slot. A program gets there by launch (15 R392-R394; 01 R19); this stands for that. -/
def State.withFetchWord (s : State) (_nbits w : Nat) : State := s.place (BitVec.ofNat 512 w)

end Sys2Proof.Machine
end

