-- ==== Sys2Proof/Safety.lean ====
section
/-! DEFINITION. What counts as a safe run: no step stops, and every reached state is well formed.

A trap, a context fault or a pipeline error is no stop of the machine: the spec says how each is handled (14 R353-R383), and
the next state shows it. -/

namespace Sys2Proof.Machine

/-- The step answers a next state. -/
def State.Steps (s : State) : Prop := ∃ t, step s = .next t

/-- What holds in every state of the machine: device memory is in its canonical form. -/
def State.Inv (s : State) : Prop := s.mem.wf = true

/-- A state reached from another by some number of steps. -/
inductive Reaches : State → State → Prop where
  | refl (s : State) : Reaches s s
  | tail (s t u : State) : Reaches s t → step t = .next u → Reaches s u

/-- Every run from the state goes on and keeps the invariant. -/
def State.Safe (s : State) : Prop := ∀ t, Reaches s t → t.Steps ∧ t.Inv

/-! ## The words that statements about slot operations use -/

/-- The slot operation passes the checks that come before its own effect, and its guard holds (03 R64, R50, R51; 05 R114; 07
R173); `t` is the state in which its own effect begins. -/
def Runs (i : Instr) (o : Op) (s t : State) : Prop :=
  s.issue.active = true ∧ o.sh = false
    ∧ i.fieldsOk s.issue.slot (hdrNlit (bundleHeader s.issue.bundle)) = true ∧ (s.kern s.issue.kid).limitsOk i = true
    ∧ occupied (s.kern s.issue.kid) s.issue.slot = false
    ∧ (do occupy i; guardHolds o : Slot Bool) s = .ok (true, t)
    ∧ writesLent (t.kern t.issue.kid) i t.issue.slot o = false

/-- A read inside a slot answers a value, and leaves `t` (a choice taken in a window of results in flight, 05 R104). -/
def Reads {α : Type} (f : Slot α) (s : State) (x : α) (t : State) : Prop := f s = .ok (x, t)

/-- The state with a result of the slot that runs in flight: it lands `lat` core cycles later (05 R104). -/
def State.flown (s : State) (lat : Nat) (dst : FDest) (latch : Bool) (flags : BitVec 5) : State :=
  s.modKern s.issue.kid fun k => { k with flights := k.flights ++
    [⟨k.cyc, k.cyc + lat, s.issue.slot, s.issue.addr.toNat, dst, latch, k.ctl.handler, flags, false⟩] }

/-- The kernel whose bundle is in mid-issue. -/
def State.cur (s : State) : Kern := s.kern s.issue.kid

/-- The scalar register that a slot word's DST names in the mode of the kernel; none under NW = 1 (03 R52, R53; 05 R102). -/
def destOf (o : Op) (k : Kern) : Option Nat :=
  if o.nw then none else some (scalarIndex k.ctl.handler (32 * o.dstBank + o.dstIdx))

/-- An untagged scalar result with valid check bits. -/
def Reg.ofWord (v : Word) : Reg := ⟨v, false, false, v, false⟩

end Sys2Proof.Machine
end

