-- ==== Sys2Proof/Certificates/Slice0/Obligations.lean ====
section
/-! DEFINITION. The statements for the provers. A slot operation is spoken of where it runs (`Runs`): its checks have
passed and its guard holds; where its operands are read (`Reads`), the state that a read leaves is named, because a read in
the window of a result in flight takes a free choice (05 R104). -/

open Sys2Proof Sys2Proof.Machine

/-! ## Scalar operations (05 R115-R128) -/

namespace Sys2Proof.Machine

/-- A row of R116: the operation, its latency, its result on patterns of w bits. -/
structure IntRow where
  ins : Op → Instr
  lat : Nat
  f : (w : Nat) → BitVec w → BitVec w → BitVec w

/-- The 64 bits written: for .w32 the result zero-extended (R115). -/
def IntRow.value (r : IntRow) (w64 : Bool) (a b : Word) : Word :=
  if w64 then r.f 64 a b else (r.f 32 (a.setWidth 32) (b.setWidth 32)).setWidth 64

/-- The table of R116, with the latencies of R16: the operations of two sources. -/
def intRows : List IntRow :=
  [⟨.add, 1, fun _ a b => a + b⟩,
   ⟨.sub, 1, fun _ a b => a - b⟩,
   ⟨.mul, 3, fun _ a b => a * b⟩,
   ⟨.mulh, 3, fun w a b => (a.signExtend (2 * w) * b.signExtend (2 * w)).extractLsb' w w⟩,
   ⟨.mulhn, 3, fun w a b => (a.setWidth (2 * w) * b.setWidth (2 * w)).extractLsb' w w⟩,
   ⟨.div, 20, fun w a b => if b = 0 then BitVec.allOnes w else a.sdiv b⟩,
   ⟨.divn, 20, fun w a b => if b = 0 then BitVec.allOnes w else a / b⟩,
   ⟨.rem, 20, fun _ a b => if b = 0 then a else a.srem b⟩,
   ⟨.remn, 20, fun _ a b => if b = 0 then a else a % b⟩,
   ⟨.and, 1, fun _ a b => a &&& b⟩,
   ⟨.or, 1, fun _ a b => a ||| b⟩,
   ⟨.xor, 1, fun _ a b => a ^^^ b⟩,
   ⟨.andn, 1, fun _ a b => a &&& ~~~b⟩,
   ⟨.shl, 1, fun w a b => a <<< (b.toNat % w)⟩,
   ⟨.shr, 1, fun w a b => a >>> (b.toNat % w)⟩,
   ⟨.sar, 1, fun w a b => a.sshiftRight (b.toNat % w)⟩,
   ⟨.rot, 1, fun w a b => a.rotateLeft (b.toNat % w)⟩,
   ⟨.min, 1, fun _ a b => if a.sle b then a else b⟩,
   ⟨.max, 1, fun _ a b => if a.sle b then b else a⟩,
   ⟨.minn, 1, fun _ a b => if a ≤ b then a else b⟩,
   ⟨.maxn, 1, fun _ a b => if a ≤ b then b else a⟩]

/-- The set bits of a pattern. -/
def setBits {w : Nat} (a : BitVec w) : Nat := (List.range w).countP fun i => a.getLsbD i

/-- Leading zero bits: how many bits lie above the highest set one. -/
def leadingZeros {w : Nat} (a : BitVec w) : Nat := ((List.range w).reverse.takeWhile fun i => !a.getLsbD i).length

/-- The operations of one source (R116, R117). -/
def unaryRows (o : Op) : List IntRow :=
  [⟨.clz, 1, fun w a _ => BitVec.ofNat w (leadingZeros a)⟩,
   ⟨.popc, 1, fun w a _ => BitVec.ofNat w (setBits a)⟩,
   ⟨.sext, 1, fun w a _ => (a.setWidth (o.m.toNat / 2 + 1)).signExtend w⟩]

/-- BEXT: bits pos to pos + len - 1 of a, bits at or above w reading as zero (R117). -/
def bextRow (o : Op) : IntRow :=
  ⟨.bext, 1, fun w a b => (a >>> (b.toNat % 64)) &&& BitVec.ofNat w (2 ^ (o.m.toNat / 2 + 1) - 1)⟩

/-- The two-operand functions of R120. -/
def logicTable (f : Nat) (x y : Bool) : Bool :=
  match f with
  | 0 => x && y
  | 1 => x || y
  | 2 => xor x y
  | 3 => x && !y
  | 4 => x || !y
  | 5 => !(x && y)
  | 6 => !(x || y)
  | _ => !(xor x y)

/-- A tagged result (R115): the origin in bits 14:0, and both tags for .w64. -/
def Reg.tagged (w64 : Bool) (g : Origin) : Reg := ⟨g.setWidth 64, true, w64, g.setWidth 64, false⟩

/-- An untagged predicate with valid check bits. -/
def PredReg.ofBool (b : Bool) : PredReg := ⟨b, false, 0, b⟩

/-- A tagged predicate: value 0 and the origin (R119, R120). -/
def PredReg.poisoned (g : Origin) : PredReg := ⟨false, true, g, false⟩

/-- A predicate result into the predicate that DST names; under NW = 1 nothing is written. -/
def predDest (o : Op) (p : PredReg) : FDest := if o.nw then .flags else .pred o.dstIdx p

/-- The origin of a tagged predicate. -/
def PredReg.origin? (p : PredReg) : Option Origin := if p.tag then some p.org else none

end Sys2Proof.Machine

/-- The integer operations write the results of their table and descriptions, untagged, at their latencies. Formalises R116. -/
def Obligations.IntegerResults : Prop :=
  (∀ r ∈ intRows, ∀ (o : Op) (s t u v : State) (a b : SVal),
    Runs (r.ins o) o s t → Reads (readWidth o.w o.a) t a u → Reads (readWidth o.w o.b) u b v → v.soft = [] →
    a.tagged = false → b.tagged = false →
    exec (r.ins o) s = .next
      (v.flown r.lat (.sreg (destOf o v.cur) (Reg.ofWord (r.value o.w a.v b.v))) true 0).advanceSlot)
  ∧ (∀ (o : Op) (s t u : State) (a : SVal),
    Runs (.mov o) o s t → Reads (readWidth o.w o.a) t a u → u.soft = [] → a.tagged = false →
    exec (.mov o) s = .next (u.flown 1 (.sreg (destOf o u.cur) (Reg.ofWord a.v)) true 0).advanceSlot)
  ∧ (∀ (o : Op), ∀ r ∈ unaryRows o, ∀ (s t u : State) (a : SVal),
    Runs (r.ins o) o s t → Reads (readWidth o.w o.a) t a u → u.soft = [] → a.tagged = false →
    exec (r.ins o) s = .next (u.flown r.lat (.sreg (destOf o u.cur) (Reg.ofWord (r.value o.w a.v 0))) true 0).advanceSlot)
  ∧ (∀ (o : Op) (s t u v : State) (a b : SVal),
    Runs (.bext o) o s t → Reads (readWidth o.w o.a) t a u → Reads (readWidth o.w o.b) u b v → v.soft = [] →
    a.tagged = false → b.tagged = false →
    exec (.bext o) s = .next
      (v.flown 1 (.sreg (destOf o v.cur) (Reg.ofWord ((bextRow o).value o.w a.v b.v))) true 0).advanceSlot)
  ∧ (∀ (o : Op) (s t u v x : State) (a b d : SVal),
    Runs (.bins o) o s t → Reads (readWidth o.w o.a) t a u → Reads (readWidth o.w o.b) u b v →
    Reads (readDest o o.w) v d x → x.soft = [] → a.tagged = false → b.tagged = false → d.tagged = false →
    ∃ r : Word, exec (.bins o) s = .next (x.flown 1 (.sreg (destOf o x.cur) (Reg.ofWord r)) true 0).advanceSlot
      ∧ ∀ i < 64, r.getLsbD i =
          (if b.v.toNat % 64 ≤ i ∧ i < b.v.toNat % 64 + (o.m.toNat / 2 + 1) ∧ i < (if o.w then 64 else 32)
           then a.v.getLsbD (i - b.v.toNat % 64) else d.v.getLsbD i))

/-- An integer operation with a tagged source delivers the tagged merged origin. Rests on 05 R115, 04 R90, 04 R94. -/
def Obligations.TaggedIntegerSources : Prop :=
  (∀ (o : Op), ∀ r ∈ bextRow o :: intRows, ∀ (s t u v : State) (a b : SVal) (g : Origin),
    Runs (r.ins o) o s t → Reads (readWidth o.w o.a) t a u → Reads (readWidth o.w o.b) u b v → v.soft = [] →
    mergePoison [a.org?, b.org?] = some g →
    exec (r.ins o) s = .next (v.flown r.lat (.sreg (destOf o v.cur) (Reg.tagged o.w g)) true 0).advanceSlot)
  ∧ (∀ (o : Op), ∀ r ∈ unaryRows o, ∀ (s t u : State) (a : SVal),
    Runs (r.ins o) o s t → Reads (readWidth o.w o.a) t a u → u.soft = [] → a.tagged = true →
    exec (r.ins o) s = .next (u.flown r.lat (.sreg (destOf o u.cur) (Reg.tagged o.w a.origin)) true 0).advanceSlot)

/-- SEL, MOV, CMP and PLOG select, carry and compare as described. Rests on 05 R118, 05 R115, 05 R119, 05 R120. -/
def Obligations.SelectsMovesAndConditions : Prop :=
  (∀ (o : Op) (s t u v w : State) (p : PredReg) (a b : SVal),
    Runs (.sel o) o s t → Reads (readPred o.m41) t p u → Reads (readWidth o.w o.a) u a v → Reads (readWidth o.w o.b) v b w →
    w.soft = [] →
    (p.tag = false → exec (.sel o) s = .next (w.flown 1 (.sreg (destOf o w.cur)
      (let x := if p.v then a else b; ⟨x.v, x.tl, x.th, x.v, false⟩)) true 0).advanceSlot)
    ∧ (∀ g, p.tag = true → mergePoison [some p.org, a.org?, b.org?] = some g →
      exec (.sel o) s = .next (w.flown 1 (.sreg (destOf o w.cur) (Reg.tagged o.w g)) true 0).advanceSlot))
  ∧ (∀ (o : Op) (s t u : State) (a : SVal),
    Runs (.mov o) o s t → Reads (readWidth o.w o.a) t a u → u.soft = [] →
    exec (.mov o) s = .next (u.flown 1 (.sreg (destOf o u.cur) ⟨a.v, a.tl, a.th, a.v, false⟩) true 0).advanceSlot)
  ∧ (∀ (o : Op) (s t u v : State) (a b : SVal),
    Runs (.cmp o) o s t → Reads (readWidth o.w o.a) t a u → Reads (readWidth o.w o.b) u b v → v.soft = [] →
    (∀ (c : Bool), a.tagged = false → b.tagged = false →
      (c = true ↔ (let w := if o.w then 64 else 32
        let x : BitVec w := a.v.setWidth w
        let y : BitVec w := b.v.setWidth w
        match o.m41 with
        | 0 => x = y | 1 => x ≠ y | 2 => x.toInt < y.toInt | 3 => x.toInt ≤ y.toInt | 4 => y.toInt < x.toInt
        | 5 => y.toInt ≤ x.toInt | 6 => x < y | 7 => x ≤ y | 8 => y < x | 9 => y ≤ x | 10 => x &&& y ≠ 0 | _ => x &&& y = 0)) →
      exec (.cmp o) s = .next (v.flown 1 (predDest o (.ofBool c)) false 0).advanceSlot)
    ∧ (∀ g, mergePoison [a.org?, b.org?] = some g →
      exec (.cmp o) s = .next (v.flown 1 (predDest o (.poisoned g)) false 0).advanceSlot))
  ∧ (∀ (o : Op) (s t u v : State) (x y : PredReg),
    Runs (.plog o) o s t → Reads (readPredField o.a) t x u → Reads (readPredField o.b) u y v → v.soft = [] → o.m41 < 8 →
    (x.tag = false → y.tag = false →
      exec (.plog o) s = .next (v.flown 1 (predDest o (.ofBool (logicTable o.m41 x.v y.v))) false 0).advanceSlot)
    ∧ (∀ g, mergePoison [x.origin?, y.origin?] = some g →
      exec (.plog o) s = .next (v.flown 1 (predDest o (.poisoned g)) false 0).advanceSlot))
  ∧ (∀ (o : Op) (s t u : State) (x : PredReg),
    Runs (.plog o) o s t → Reads (readPredField o.a) t x u → u.soft = [] → (o.m41 = 8 ∨ o.m41 = 9) →
    exec (.plog o) s = .next (u.flown 1 (predDest o
      (if x.tag then .poisoned x.org else .ofBool (if o.m41 = 8 then !x.v else x.v))) false 0).advanceSlot)

/-! ## Floating-point arithmetic (04 R80-R94; 05 R121-R124) -/

namespace Sys2Proof.Machine

/-- A floating-point operation of two sources (R122): its latency by width, and its exact result under a rounding mode. -/
structure FpRow where
  ins : Op → Instr
  lat : Bool → Nat
  f : Nat → FVal → FVal → Arith FVal

/-- FADD, FSUB, FMUL and FDIV (R122). -/
def fpRows : List FpRow :=
  [⟨.fadd, fun _ => 4, fun rm a b => fpAdd rm a b⟩,
   ⟨.fsub, fun _ => 4, fun rm a b => fpAdd rm a b.negate⟩,
   ⟨.fmul, fun _ => 4, fun _ a b => fpMul a b⟩,
   ⟨.fdiv, fun d => if d then 24 else 14, fun _ a b => fpDiv a b⟩]

/-- A scalar floating-point result: its encoding, and the tags a poison result sets (R121). -/
def Reg.float (f : Fmt) (r : RVal) : Reg :=
  ⟨BitVec.ofNat 64 (r.toBits f), r.isPoison, r.isPoison && f.w == 64, BitVec.ofNat 64 (r.toBits f), false⟩

/-- The arithmetic of the slot that runs, carried out: its result, the conditions raised, and the state with its LFSR steps and
origin entries. -/
def State.carryOut {α : Type} (s : State) (opnd : Nat) (x : Arith α) : α × BitVec 5 × State :=
  let r := x.run s.slotArith
  (r.1, r.2.flags, s.commitArith (s.slotInfo opnd 0) r.2)

/-- The state after an arithmetic that takes no bit of the LFSR and makes no origin. -/
def State.settled (s : State) (opnd : Nat) : State := (s.carryOut opnd (pure () : Arith Unit)).2.2

/-- No more than 16 origins stand in an open segment (14 R377 reason 8). -/
def State.FewOrigins (s : State) : Prop := ∀ g, s.cur.seg = some g → g.origins.length ≤ 16

/-- It names the result, the conditions and the state that the arithmetic gives, whatever they are. -/
def Computes {α : Type} (x : Arith α) (opnd : Nat) (s : State) (r : α) (fl : BitVec 5) (t : State) : Prop :=
  s.carryOut opnd x = (r, fl, t) ∧ t.FewOrigins

/-- The exponent field, the fraction and the sign of a binary32 or binary64 encoding (04 R76, R86). -/
def expField (d : Bool) (x : Nat) : Nat := if d then x / 2 ^ 52 % 2 ^ 11 else x / 2 ^ 23 % 2 ^ 8
def fracField (d : Bool) (x : Nat) : Nat := if d then x % 2 ^ 52 else x % 2 ^ 23
def signField (d : Bool) (x : Nat) : Bool := if d then x / 2 ^ 63 % 2 == 1 else x / 2 ^ 31 % 2 == 1

/-- The one-hot class of an encoding, as a bit number; `p` says that a tag marks it as poison (05 R123). -/
def classBit (d p : Bool) (x : Nat) : Nat :=
  let e := expField d x
  let m := fracField d x
  let n := signField d x
  if p then 8
  else if e = (if d then 2 ^ 11 - 1 else 2 ^ 8 - 1) then
    if m = 0 then (if n then 0 else 7) else if m / (if d then 2 ^ 50 else 2 ^ 21) = 3 then 8 else 9
  else if e = 0 then
    if m = 0 then (if n then 3 else 4) else if n then 2 else 5
  else if n then 1 else 6

/-- A scalar that is a number: no tag, no NaN. -/
def SVal.isNumber (d : Bool) (x : SVal) : Prop := classBit d x.tagged x.v.toNat < 8

/-- The order of numbers as their encodings show it: sign and magnitude; the zeros are equal. -/
def numKey (d : Bool) (x : Nat) : Int :=
  let m : Int := ((if d then x % 2 ^ 63 else x % 2 ^ 31 : Nat) : Int)
  if signField d x then -m else m

/-- a is at or below b where -0 is below +0 (05 R123). -/
def atOrBelow (d : Bool) (a b : Nat) : Prop := numKey d a < numKey d b ∨ (numKey d a = numKey d b ∧ signField d a = true)

/-- The origin that an operand brings: its own, or for a foreign NaN that of FOREIGN (04 R88, R92). -/
def FVal.brings (foreign : Origin) (v : FVal) : Option Origin :=
  match v with | .poison o => some o | .foreign => some foreign | _ => none

/-- Operands of which one is poison or foreign, merged: the origin, and the state in which a FOREIGN origin has been made. -/
def Merges (s : State) (opnd : Nat) (l : List FVal) (g : Origin) (t : State) : Prop :=
  mergePoison (l.map (·.brings ((newOrigin kFOREIGN).run s.slotArith).1)) = some g ∧ t = (s.carryOut opnd (gather l)).2.2

/-- The operands of an instance as its origin entry holds them (14 R365): 64 bits each. -/
def operandBits : List SVal → Nat
  | [] => 0
  | x :: l => x.v.toNat + 2 ^ 64 * operandBits l

/-- The value of a finite number without a sticky bit, in units of 2^e. -/
def Ex.units (x : Ex) (e : Int) : Int := (if x.neg then -1 else 1) * ((x.m * 2 ^ (x.e - e).toNat : Nat) : Int)

end Sys2Proof.Machine

/-- The scalar floating-point operations deliver one rounding of the exact result. Rests on 05 R121, 05 R122, 05 R124, 04 R94. What is written where R82 and R124 leave a delivered infinity or overflow open is log entry 111: the model's. -/
def Obligations.FloatingPointResults : Prop :=
  (∀ r ∈ fpRows, ∀ (o : Op) (s t u v w : State) (a b : SVal) (y : RVal) (fl : BitVec 5),
    Runs (r.ins o) o s t → Reads (readWidth o.w o.a) t a u → Reads (readWidth o.w o.b) u b v →
    Computes (do roundTo (fmtOf o.w) (← r.f o.rm (fpOperand (fmtOf o.w) a) (fpOperand (fmtOf o.w) b)) o.rm o.sat)
      (operandBits [a, b]) v y fl w → w.soft = [] →
    exec (r.ins o) s = .next (w.flown (r.lat o.w) (.sreg (destOf o w.cur) (Reg.float (fmtOf o.w) y)) true fl).advanceSlot)
  ∧ (∀ (sub : Bool) (o : Op) (s t u v x w : State) (a b d : SVal) (y : RVal) (fl : BitVec 5),
    let i := if sub then Instr.ffms o else Instr.ffma o
    Runs i o s t → Reads (readWidth o.w o.a) t a u → Reads (readWidth o.w o.b) u b v → Reads (readDest o o.w) v d x →
    Computes (do roundTo (fmtOf o.w) (← fpFma o.rm (fpOperand (fmtOf o.w) a) (fpOperand (fmtOf o.w) b)
        (if sub then (fpOperand (fmtOf o.w) d).negate else fpOperand (fmtOf o.w) d)) o.rm o.sat)
      (operandBits [a, b, d]) x y fl w → w.soft = [] →
    exec i s = .next (w.flown 4 (.sreg (destOf o w.cur) (Reg.float (fmtOf o.w) y)) true fl).advanceSlot)
  ∧ (∀ (o : Op) (s t u w : State) (a : SVal) (y : RVal) (fl : BitVec 5),
    Runs (.fsqrt o) o s t → Reads (readWidth o.w o.a) t a u →
    Computes (do roundTo (fmtOf o.w) (← fpSqrt (fpOperand (fmtOf o.w) a)) o.rm o.sat) (operandBits [a]) u y fl w →
    w.soft = [] →
    exec (.fsqrt o) s = .next (w.flown (if o.w then 24 else 14) (.sreg (destOf o w.cur) (Reg.float (fmtOf o.w) y)) true
      fl).advanceSlot)
  ∧ (∀ (o : Op) (s t u w : State) (a : SVal) (y : RVal) (fl : BitVec 5),
    let c := fcvtPair (2 * o.m75 + (if o.w then 1 else 0))
    Runs (.fcvt o) o s t → Reads (readWidth (c.2.w == 64) o.a) t a u →
    Computes (roundCvt c.1 (fpOperand c.2 a) o.rm o.sat) a.v.toNat u y fl w → w.soft = [] →
    exec (.fcvt o) s = .next (w.flown 3 (.sreg (destOf o w.cur) (Reg.float c.1 y)) true fl).advanceSlot)

/-- FMIN, FMAX, FSGN, FCMP and FCLASS deliver their results with latency 2. Rests on 05 R123, 04 R88, 04 R92. -/
def Obligations.ComparisonsSignsAndClasses : Prop :=
  (∀ (big : Bool) (o : Op) (s t u v : State) (a b : SVal),
    let i := if big then Instr.fmax o else Instr.fmin o
    let n := a.v.toNat + 2 ^ 64 * b.v.toNat
    Runs i o s t → Reads (readWidth o.w o.a) t a u → Reads (readWidth o.w o.b) u b v → v.soft = [] →
    (a.isNumber o.w → b.isNumber o.w → v.FewOrigins →
      let w := v.settled n
      (atOrBelow o.w a.v.toNat b.v.toNat →
        exec i s = .next (w.flown 2 (.sreg (destOf o w.cur) (Reg.ofWord (if big then b.v else a.v))) true 0).advanceSlot)
      ∧ (¬ atOrBelow o.w a.v.toNat b.v.toNat →
        exec i s = .next (w.flown 2 (.sreg (destOf o w.cur) (Reg.ofWord (if big then a.v else b.v))) true 0).advanceSlot))
    ∧ (∀ (g : Origin) (w : State), Merges v n [fpOperand (fmtOf o.w) a, fpOperand (fmtOf o.w) b] g w → w.FewOrigins →
      exec i s = .next (w.flown 2 (.sreg (destOf o w.cur) (Reg.float (fmtOf o.w) (.poison g))) true 0).advanceSlot))
  ∧ (∀ (o : Op) (s t u v : State) (a b : SVal),
    let n := a.v.toNat + 2 ^ 64 * b.v.toNat
    Runs (.fsgn o) o s t → Reads (readWidth o.w o.a) t a u → Reads (readWidth o.w o.b) u b v → v.soft = [] →
    (∀ r : Word, a.isNumber o.w → b.isNumber o.w → v.FewOrigins →
      (∀ i < 64, r.getLsbD i = (if i = (if o.w then 63 else 31) then b.v.getLsbD i
        else decide (i < (if o.w then 64 else 32)) && a.v.getLsbD i)) →
      let w := v.settled n
      exec (.fsgn o) s = .next (w.flown 2 (.sreg (destOf o w.cur) (Reg.ofWord r)) true 0).advanceSlot)
    ∧ (∀ (g : Origin) (w : State), Merges v n [fpOperand (fmtOf o.w) a, fpOperand (fmtOf o.w) b] g w → w.FewOrigins →
      exec (.fsgn o) s = .next (w.flown 2 (.sreg (destOf o w.cur) (Reg.float (fmtOf o.w) (.poison g))) true 0).advanceSlot))
  ∧ (∀ (o : Op) (s t u v : State) (a b : SVal),
    let n := a.v.toNat + 2 ^ 64 * b.v.toNat
    Runs (.fcmp o) o s t → Reads (readWidth o.w o.a) t a u → Reads (readWidth o.w o.b) u b v → v.soft = [] →
    (∀ c : Bool, a.isNumber o.w → b.isNumber o.w → v.FewOrigins →
      (c = true ↔ (let x := numKey o.w a.v.toNat
        let y := numKey o.w b.v.toNat
        match o.m75 with | 0 => x = y | 1 => x ≠ y | 2 => x < y | 3 => x ≤ y | 4 => y < x | _ => y ≤ x)) →
      exec (.fcmp o) s = .next ((v.settled n).flown 2 (predDest o (.ofBool c)) false 0).advanceSlot)
    ∧ (∀ (g : Origin) (w : State), Merges v n [fpOperand (fmtOf o.w) a, fpOperand (fmtOf o.w) b] g w → w.FewOrigins →
      exec (.fcmp o) s = .next (w.flown 2 (predDest o (.poisoned g)) false 0).advanceSlot))
  ∧ (∀ (o : Op) (s t u : State) (a : SVal),
    Runs (.fclass o) o s t → Reads (readWidth o.w o.a) t a u → u.soft = [] →
    exec (.fclass o) s = .next
      (u.flown 2 (.sreg (destOf o u.cur) (Reg.ofWord (BitVec.ofNat 64 (2 ^ classBit o.w a.tagged a.v.toNat)))) true 0).advanceSlot)

/-- A rounding onto the grid obeys its mode, ties to even. Rests on 04 R80, 04 R81. -/
def Obligations.RoundingByMode : Prop :=
  (∀ (mode : Nat) (neg : Bool) (r m : Nat) (e u : Int) (st : Bool), (0 < m ∨ st = true) → r < 2 ^ 24 →
    let n := (roundUnits mode neg r m e st u).1
    let inexact := (roundUnits mode neg r m e st u).2
    (u ≤ e → st = false → n = m * 2 ^ (e - u).toNat ∧ inexact = false)
    ∧ (e < u → (st = true → e + 24 ≤ u) →
      let d := 2 ^ (u - e).toNat
      (inexact = true ↔ m % d ≠ 0 ∨ st = true)
      ∧ (mode = 0 → st = false → 2 * m ≤ 2 * (n * d) + d ∧ 2 * (n * d) ≤ 2 * m + d
          ∧ (2 * m = 2 * (n * d) + d ∨ 2 * (n * d) = 2 * m + d → n % 2 = 0))
      ∧ (mode = 0 → st = true → 2 * (m + 1) ≤ 2 * (n * d) + d ∧ 2 * (n * d) ≤ 2 * m + d)
      ∧ (mode = 1 → n = m / d)
      ∧ (mode = 2 → n = if neg then m / d else m / d + (if m % d ≠ 0 ∨ st = true then 1 else 0))
      ∧ (mode = 3 → n = if neg then m / d + (if m % d ≠ 0 ∨ st = true then 1 else 0) else m / d)
      ∧ (mode = 4 → n = (m * 2 ^ 24 + r * d) / (d * 2 ^ 24))))
  ∧ (∀ (f : Fmt) (x : Ex), f.m ≤ 52 → 2 ^ 120 ≤ x.m →
      x.e + 24 ≤ max (x.e + (bitLen x.m : Int) - 1 - (f.m : Int)) f.qmin)

/-- The sum and the product of finite values are exact, or bracketed with a sticky bit. Rests on 04 R94, 05 R122. -/
def Obligations.ExactSumsAndProducts : Prop :=
  (∀ a b : Ex, a.st = false → b.st = false →
    (exMul a b).st = false ∧ (exMul a b).units (a.e + b.e) = a.units a.e * b.units b.e)
  ∧ (∀ (rdn : Bool) (a b : Ex), a.st = false → b.st = false →
    let c := exAdd rdn a b
    let l := min (min a.e b.e) c.e
    (c.st = false → c.units l = a.units l + b.units l)
    ∧ (c.st = true → let sum := a.units l + b.units l
        (c.neg = false → c.units l < sum ∧ sum < c.units l + 2 ^ (c.e - l).toNat)
        ∧ (c.neg = true → sum < c.units l ∧ c.units l - 2 ^ (c.e - l).toNat < sum)
        ∧ 2 ^ 299 ≤ c.m)
    ∧ (a.m ≠ 0 → c.m = 0 → c.neg = rdn))

/-! ## Poison and check operations, system registers, the device-memory port (05 R125-R139) -/

namespace Sys2Proof.Machine

/-- The origin of a scalar that is poison under a type of R125: .w32, .w64, .f32, .f64; the float encodings are those of R86. -/
def poisonUnder (ty : Nat) (x : SVal) : Option Origin :=
  match ty with
  | 0 => if x.tl then some (x.v.setWidth 15) else none
  | 1 => if x.tl || x.th then some (x.v.setWidth 15) else none
  | 2 => if x.tl || x.v.extractLsb' 21 10 == 0x3FF then some (x.v.setWidth 15) else none
  | _ => if x.tl || x.th || x.v.extractLsb' 50 13 == 0x1FFF then some (x.v.setWidth 15) else none

/-- The slot traps: its effects are discarded, and TrapEntry takes the cause, TVAL and TORIG. -/
def Traps (i : Instr) (s : State) (cause : Nat) (val : Word) (orig : Origin) : Prop :=
  exec i s = .next (s.stopSlot (.trap cause val orig))

/-- The system registers by number, laid out as R130, R131, R84 and 06 R151 say. -/
def sysRegWord (s : State) (k : Kern) (n : Nat) : Word :=
  let stage := k.n / k.gq
  let loop := fun (l : LoopReg) =>
    BitVec.ofBool l.active ++ BitVec.ofBool l.drain ++ l.sm1 ++ l.iim1 ++ l.k ++ (0 : BitVec 2) ++ l.start ++ l.left
  match n with
  | 0x00 => BitVec.ofNat 64 s.hub.time
  | 0x01 => BitVec.ofNat 64 (if k.ctl.handler then k.ctl.trapStamp else s.dcyc k.dom)
  | 0x02 => (0 : BitVec 56) ++ BitVec.ofNat 2 (k.core / 64) ++ BitVec.ofNat 3 (k.core / 8) ++ BitVec.ofNat 3 k.core
  | 0x03 => (0 : BitVec 36) ++ BitVec.ofNat 4 (k.gs - 1) ++ (0 : BitVec 2) ++ BitVec.ofNat 6 (k.gq - 1) ++ (0 : BitVec 4)
      ++ BitVec.ofNat 4 stage ++ (0 : BitVec 2) ++ BitVec.ofNat 6 (k.n % k.gq)
  | 0x04 => (0 : BitVec 54) ++ BitVec.ofBool (decide (stage = k.gs - 1)) ++ BitVec.ofBool (decide (stage = 0))
      ++ BitVec.ofNat 4 (k.gs - 1) ++ BitVec.ofNat 4 stage
  | 0x05 => 0x10001
  | 0x06 => BitVec.ofNat 64 (s.sliceLeft k)
  | 0x08 => k.spr.tcause.setWidth 64
  | 0x09 => k.spr.tpc.setWidth 64
  | 0x0A => k.spr.tval
  | 0x0B => k.spr.torig.setWidth 64
  | 0x0C => k.spr.tvec.setWidth 64
  | 0x10 => if k.spr.pstore then 1 else 0
  | 0x11 => k.spr.fpctl.setWidth 64
  | 0x12 => k.spr.fpflags.setWidth 64
  | 0x13 => k.spr.srseed
  | 0x14 => k.spr.bwphase.setWidth 64
  | 0x18 => loop k.ctl.lc0
  | _ => loop k.ctl.lc1

/-- The kernel's place in its gang and its core lie within the limits of a launch (15 R392). -/
def Kern.placed (k : Kern) : Prop :=
  k.core < 256 ∧ 1 ≤ k.gs ∧ k.gs ≤ 16 ∧ 1 ≤ k.gq ∧ k.gq ≤ 64 ∧ k.n < k.gs * k.gq

/-- An access appended to the port of the current kernel's core, under the next sequence number. -/
def State.ported (s : State) (x : PItem) : State :=
  s.modCore s.cur.core fun c => { c with port := c.port ++ [x], pseq := c.pseq + 1 }

/-- The state with the pending bit of a register of the current kernel set (R106). -/
def State.pend (s : State) (dst : Option Nat) : State :=
  match dst with
  | none => s
  | some i => s.modKern s.issue.kid fun k =>
      { k with regs := Tab.put Reg.zero k.regs i { Tab.get Reg.zero k.regs i with pend := true } }

/-- An access as it is issued: waiting, with the width, the scope and the stamp of its instruction. -/
def PItem.issuedBy (x : PItem) (s : State) (o : Op) (va : Nat) (op : POp) : Prop :=
  x.seq = (s.core s.cur.core).pseq ∧ x.kid = s.issue.kid ∧ x.op = op ∧ x.va = va ∧ x.w8 = o.m.getLsbD 0
    ∧ x.scope = (o.m.extractLsb' 1 3).toNat ∧ x.st = .waiting ∧ x.result = none
    ∧ x.stamp = (if s.cur.ctl.handler then none else some (s.dcyc s.cur.dom))

/-- An address that R133 accepts: bits 63:49 zero, a multiple of the width. -/
def addrOk (o : Op) (a : Word) : Prop := a.toNat < 2 ^ 49 ∧ a.toNat % (if o.m.getLsbD 0 then 8 else 4) = 0

end Sys2Proof.Machine

/-- PTEST, PORIG, PSAN, PCHK and CHKEQ test, name, replace and check poison. Formalises R126. -/
def Obligations.PoisonOperations : Prop :=
  (∀ (o : Op) (s t u : State) (a : SVal), Runs (.ptest o) o s t → Reads (readScalar o.a) t a u → u.soft = [] →
    exec (.ptest o) s = .next (u.flown 1 (predDest o (.ofBool (poisonUnder (o.m.toNat % 4) a).isSome)) false 0).advanceSlot)
  ∧ (∀ (o : Op) (s t u : State) (a : SVal), Runs (.porig o) o s t → Reads (readScalar o.a) t a u → u.soft = [] →
    exec (.porig o) s = .next (u.flown 1 (.sreg (destOf o u.cur) (Reg.ofWord
      (match poisonUnder (o.m.toNat % 4) a with | some g => g.setWidth 64 | none => BitVec.allOnes 64))) true 0).advanceSlot)
  ∧ (∀ (o : Op) (s t u : State) (a : SVal), Runs (.pchk o) o s t → Reads (readScalar o.a) t a u →
    (poisonUnder (o.m.toNat % 4) a = none → exec (.pchk o) s = .next u.advanceSlot)
    ∧ (∀ g, poisonUnder (o.m.toNat % 4) a = some g → Traps (.pchk o) s 0x13 a.v g))
  ∧ (∀ (o : Op) (s t u v : State) (a b : SVal), Runs (.psan o) o s t → Reads (readScalar o.a) t a u → Reads (readScalar o.b) u b v →
    v.soft = [] →
    (poisonUnder (o.m.toNat % 4) a = none → exec (.psan o) s = .next (v.flown 1 (.sreg (destOf o v.cur)
      (if o.w then ⟨a.v, a.tl, a.th, a.v, false⟩ else ⟨(a.v.setWidth 32).setWidth 64, a.tl, false, (a.v.setWidth 32).setWidth 64, false⟩))
      true 0).advanceSlot)
    ∧ ((poisonUnder (o.m.toNat % 4) a).isSome → v.cur.seg = none → exec (.psan o) s = .next
      ((v.modCtx v.cur.ctx fun c => { c with san := min (c.san + 1) (2 ^ 32 - 1) }).flown 1 (.sreg (destOf o v.cur)
        (Reg.ofWord (if o.w then b.v else (b.v.setWidth 32).setWidth 64))) true 0).advanceSlot))
  ∧ (∀ (o : Op) (s t u v : State) (a b : SVal), Runs (.chkeq o) o s t → Reads (readWidth o.w o.a) t a u →
    Reads (readWidth o.w o.b) u b v →
    (a = b → exec (.chkeq o) s = .next v.advanceSlot)
    ∧ (a ≠ b → v.cur.resil = false → Traps (.chkeq o) s 0x14 (a.v ^^^ b.v) 0))

/-- MFS writes the numbered system register, laid out as described, untagged. Rests on 05 R129, 05 R130, 05 R131, 06 R151. -/
def Obligations.SystemRegisterReads : Prop :=
  ∀ (o : Op) (s t : State), Runs (.mfs o) o s t → t.soft = [] → t.cur.placed →
    exec (.mfs o) s = .next (t.flown 1 (.sreg (destOf o t.cur) (Reg.ofWord (sysRegWord t t.cur o.m.toNat))) true 0).advanceSlot

/-- MTS writes the writable registers and no other field, and traps on the others. Rests on 05 R129, 05 R130, 04 R81, 04 R84, 14 R354, 14 R361. -/
def Obligations.SystemRegisterWrites : Prop :=
  ∀ (o : Op) (s t u : State) (a : SVal), Runs (.mts o) o s t → Reads (readScalar o.a) t a u →
    (o.m.toNat ∉ [0x09, 0x0C, 0x10, 0x11, 0x12, 0x13] → Traps (.mts o) s 0x03 s.slotWord 0)
    ∧ (o.m.toNat ∈ [0x09, 0x0C, 0x10, 0x11, 0x12, 0x13] → a.tagged = true → Traps (.mts o) s 0x12 s.slotWord (a.v.setWidth 15))
    ∧ (a.tagged = false →
      let wr := fun (f : Spr → Spr) => exec (.mts o) s = .next (u.modKern u.issue.kid fun k => { k with spr := f k.spr }).advanceSlot
      (o.m = 0x09 → if a.v.toNat < 2 ^ 14 then wr fun p => { p with tpc := a.v.setWidth 14 } else Traps (.mts o) s 0x02 s.slotWord 0)
      ∧ (o.m = 0x0C → if a.v.toNat % 16 = 0 ∧ 0x780 ≤ a.v.toNat ∧ a.v.toNat ≤ 0x7C0 then wr fun p => { p with tvec := a.v.setWidth 11 }
          else Traps (.mts o) s 0x02 s.slotWord 0)
      ∧ (o.m = 0x10 → if a.v.toNat < 2 then wr fun p => { p with pstore := a.v.getLsbD 0 } else Traps (.mts o) s 0x02 s.slotWord 0)
      ∧ (o.m = 0x11 → wr fun p => { p with fpctl := a.v.setWidth 5 })
      ∧ (o.m = 0x12 → wr fun p => { p with fpflags := a.v.setWidth 5 ||| p.fpLanded })
      ∧ (o.m = 0x13 → wr fun p => { p with srseed := if a.v = 0 then 1 else a.v }))

/-- MLD, MST, AMO and RED enter the port with their address, value and ordering; memory is untouched. Rests on 05 R132, 05 R133, 05 R134, 05 R135, 05 R136. -/
def Obligations.PortAccessesIssue : Prop :=
  (∀ (o : Op) (s t u v : State) (a b : SVal), Runs (.mld o) o s t → Reads (readScalar o.a) t a u → Reads (readScalar o.b) u b v →
    a.tagged = false → b.tagged = false → addrOk o (a.v + b.v) →
    ∃ x : PItem, x.issuedBy v o (a.v + b.v).toNat .load ∧ x.dst = destOf o v.cur ∧ x.acq = (o.m.toNat / 16 == 1) ∧ x.rel = false
      ∧ exec (.mld o) s = .next ((v.ported x).pend (destOf o v.cur)).advanceSlot ∧ ((v.ported x).pend (destOf o v.cur)).mem = s.mem)
  ∧ (∀ (o : Op) (s t u v : State) (a d : SVal), Runs (.mst o) o s t → Reads (readScalar o.a) t a u → Reads (readScalar o.b) u d v →
    a.tagged = false → d.tagged = false → addrOk o a.v → v.cur.seg = none →
    (o.m.getLsbD 6 = true → poisonUnder (if o.m.getLsbD 0 then 3 else 2) d = none) →
    ∃ x : PItem, x.issuedBy v o a.v.toNat .store ∧ x.poison = none ∧ x.rel = (o.m.toNat / 16 % 4 == 2) ∧ x.acq = false ∧ x.dst = none
      ∧ x.data = (if o.m.getLsbD 0 then d.v else (d.v.setWidth 32).setWidth 64)
      ∧ exec (.mst o) s = .next (v.ported x).advanceSlot ∧ (v.ported x).mem = s.mem)
  ∧ (∀ (o : Op) (s t u v w : State) (a d c : SVal), Runs (.amo o) o s t → Reads (readScalar o.a) t a u →
    Reads (readWidth o.w o.b) u d v → Reads (if o.m.toNat / 16 = 10 then readDest o o.w else pure SVal.zero) v c w →
    a.tagged = false → d.tagged = false → c.tagged = false → addrOk o a.v → w.cur.resil = false →
    ∃ x : PItem, x.issuedBy w o a.v.toNat (.amo (o.m.toNat / 16)) ∧ x.data = d.v ∧ x.poison = none ∧ x.cmp = c.v ∧ x.acq = true
      ∧ x.rel = true ∧ x.dst = destOf o w.cur
      ∧ exec (.amo o) s = .next ((w.ported x).pend (destOf o w.cur)).advanceSlot ∧ ((w.ported x).pend (destOf o w.cur)).mem = s.mem)
  ∧ (∀ (o : Op) (s t u v : State) (a d : SVal), Runs (.red o) o s t → Reads (readScalar o.a) t a u → Reads (readWidth o.w o.b) u d v →
    a.tagged = false → d.tagged = false → addrOk o a.v → v.cur.seg = none →
    ∃ x : PItem, x.issuedBy v o a.v.toNat (.red (o.m.toNat / 16)) ∧ x.data = d.v ∧ x.poison = none ∧ x.dst = none
      ∧ exec (.red o) s = .next (v.ported x).advanceSlot ∧ (v.ported x).mem = s.mem)

/-- A tagged address source traps POISON-ADDR, and a misaligned or too large address traps ALIGN. Rests on 05 R133. -/
def Obligations.AddressChecks : Prop :=
  (∀ (o : Op) (s t u v : State) (a b : SVal), Runs (.mld o) o s t → Reads (readScalar o.a) t a u → Reads (readScalar o.b) u b v →
    (∀ g, mergePoison [a.org?, b.org?] = some g → Traps (.mld o) s 0x11 s.slotWord g)
    ∧ (a.tagged = false → b.tagged = false → ¬ addrOk o (a.v + b.v) → Traps (.mld o) s 0x09 (a.v + b.v) 0))
  ∧ (∀ (o : Op), ∀ i ∈ [Instr.mst o, Instr.red o], ∀ (s t u v : State) (a d : SVal),
    Runs i o s t → Reads (readScalar o.a) t a u → Reads (match i with | .red _ => readWidth o.w o.b | _ => readScalar o.b) u d v →
    (a.tagged = true → Traps i s 0x11 s.slotWord (a.v.setWidth 15))
    ∧ (a.tagged = false → ¬ addrOk o a.v → Traps i s 0x09 a.v 0))
  ∧ (∀ (o : Op) (s t u v w : State) (a d c : SVal), Runs (.amo o) o s t → Reads (readScalar o.a) t a u →
    Reads (readWidth o.w o.b) u d v → Reads (if o.m.toNat / 16 = 10 then readDest o o.w else pure SVal.zero) v c w →
    (a.tagged = true → Traps (.amo o) s 0x11 s.slotWord (a.v.setWidth 15))
    ∧ (a.tagged = false → ¬ addrOk o a.v → Traps (.amo o) s 0x09 a.v 0))

/-! ## The C slot: transfers, loops, waits, fences, traps (06 R140-R166; 14 R353-R358) -/

namespace Sys2Proof.Machine

/-- The bundle that would issue next lies in the allotment, so that the flow check passes (03 R61). -/
def FlowOk (s : State) : Prop := ∀ a, s.flowTarget = some a → isAllotted s.cur.res.is a = true

/-- The state with what the bundle has decided so far changed. -/
def State.decide (s : State) (f : Issue → Issue) : State := { s with issue := f s.issue }

/-- The state with the control state of the current kernel changed. -/
def State.ctl (s : State) (f : Ctl → Ctl) : State := s.modKern s.issue.kid fun k => { k with ctl := f k.ctl }

/-- The operation has decided w: it commits where the flow check passes; a next bundle outside the allotment traps ILLEGAL with
that bundle as TVAL (03 R61). -/
def Ends (i : Instr) (s w : State) : Prop :=
  (FlowOk w → exec i s = .next w.advanceSlot)
  ∧ ∀ a, w.flowTarget = some a → isAllotted w.cur.res.is a = false → Traps i s 0x02 (BitVec.ofNat 64 a) 0

/-- The kernel runs no loop in which a taken transfer would trap (R148). -/
def Kern.mayTransfer (k : Kern) : Prop := k.ctl.handler = true ∨ (k.ctl.lc0.active = false ∧ k.ctl.lc1.active = false)

/-- The target of BR, CALL and BSWP from the value v: relative, or absolute (R143). -/
def branchTarget (o : Op) (s : State) (v : Word) : BitVec 11 :=
  if o.m.getLsbD 0 then v.setWidth 11 else s.issue.addr + v.setWidth 11

/-- A target of BSWP lies in the other half: H1 from H0, H0 from H1 and RES (R145). -/
def otherHalf (addr g : BitVec 11) : Prop := if addr.toNat < 0x3C0 then 0x3C0 ≤ g.toNat ∧ g.toNat < 0x780 else g.toNat < 0x3C0

/-- A value that names a bundle: bits 63:11 are zero. -/
def namesBundle (v : Word) : Prop := v.toNat < 2 ^ 11

end Sys2Proof.Machine

/-- NOP, BR, JMP, CALL, CALLR, RET and BSWP decide the next bundle and keep the return stack. Rests on 06 R143, 06 R144, 06 R145, 06 R166, 03 R61. -/
def Obligations.TransfersSetTheNextBundle : Prop :=
  (∀ (o : Op) (s t : State), Runs (.nop o) o s t → Ends (.nop o) s t)
  ∧ (∀ (o : Op) (s t u : State) (a : SVal), Runs (.br o) o s t → Reads (readScalar o.a) t a u → a.tagged = false →
    u.cur.mayTransfer → (o.m.getLsbD 0 = true → namesBundle a.v) →
    let w := u.decide fun i => { i with target := some ((branchTarget o u a.v).setWidth 12) }
    Ends (.br o) s w)
  ∧ (∀ (o : Op) (s t u : State) (a : SVal), Runs (.jmp o) o s t → Reads (readScalar o.a) t a u → a.tagged = false →
    u.cur.mayTransfer → namesBundle a.v →
    let w := u.decide fun i => { i with target := some (a.v.setWidth 12) }
    Ends (.jmp o) s w)
  ∧ (∀ (o : Op) (s t u : State) (a : SVal), Runs (.call o) o s t → Reads (readScalar o.a) t a u → a.tagged = false →
    u.cur.mayTransfer → (o.m.getLsbD 0 = true → namesBundle a.v) → u.cur.ctl.rstack.length < 16 →
    let w := (u.decide fun i => { i with target := some ((branchTarget o u a.v).setWidth 12) }).ctl fun c =>
      { c with rstack := (u.issue.addr.setWidth 12 + 1) :: c.rstack }
    Ends (.call o) s w)
  ∧ (∀ (o : Op) (s t u : State) (a : SVal), Runs (.callr o) o s t → Reads (readScalar o.a) t a u → a.tagged = false →
    u.cur.mayTransfer → namesBundle a.v → u.cur.ctl.rstack.length < 16 →
    let w := (u.decide fun i => { i with target := some (a.v.setWidth 12) }).ctl fun c =>
      { c with rstack := (u.issue.addr.setWidth 12 + 1) :: c.rstack }
    Ends (.callr o) s w)
  ∧ (∀ (o : Op) (s t : State) (a : BitVec 12) (l : List (BitVec 12)), Runs (.ret o) o s t → t.cur.ctl.rstack = a :: l →
    t.cur.mayTransfer →
    let w := (t.decide fun i => { i with target := some a }).ctl fun c => { c with rstack := l }
    Ends (.ret o) s w)
  ∧ (∀ (o : Op) (s t u : State) (a : SVal), Runs (.bswp o) o s t → Reads (readScalar o.a) t a u → a.tagged = false →
    u.cur.mayTransfer → (o.m.getLsbD 0 = true → namesBundle a.v) →
    let g := branchTarget o u a.v
    let w := u.decide fun i => { i with target := some (g.setWidth 12) }
    otherHalf u.issue.addr g → u.cur.halfClosed (if u.issue.addr.toNat < 0x3C0 then 1 else 0) = false →
    Ends (.bswp o) s w)

/-- Transfers that break their rules trap ILLEGAL with the value their rule names. Rests on 06 R142, 06 R143, 06 R144, 06 R145, 06 R148, 06 R166. -/
def Obligations.TransferFailuresTrap : Prop :=
  (∀ (o : Op) (s t u : State) (a : SVal), ∀ i ∈ [Instr.br o, Instr.call o, Instr.jmp o, Instr.callr o, Instr.bswp o],
    let abs := i = .jmp o ∨ i = .callr o ∨ o.m.getLsbD 0 = true
    Runs i o s t → Reads (readScalar o.a) t a u →
    (a.tagged = true → Traps i s 0x10 s.slotWord (a.v.setWidth 15))
    ∧ (a.tagged = false → ¬ namesBundle a.v → abs → Traps i s 0x02 a.v 0)
    ∧ (a.tagged = false → (abs → namesBundle a.v) → i ≠ .bswp o → ¬ u.cur.mayTransfer → Traps i s 0x02 s.slotWord 0)
    ∧ (a.tagged = false → (abs → namesBundle a.v) → (i = .call o ∨ i = .callr o) → u.cur.mayTransfer → 16 ≤ u.cur.ctl.rstack.length →
      Traps i s 0x02 s.slotWord 0))
  ∧ (∀ (o : Op) (s t u : State) (a : SVal), Runs (.bswp o) o s t → Reads (readScalar o.a) t a u → a.tagged = false →
    (o.m.getLsbD 0 = true → namesBundle a.v) →
    let g := branchTarget o u a.v
    let closed := u.cur.halfClosed (if u.issue.addr.toNat < 0x3C0 then 1 else 0)
    (¬ otherHalf u.issue.addr g → Traps (.bswp o) s 0x02 (g.setWidth 64) 0)
    ∧ (otherHalf u.issue.addr g → closed = true → Traps (.bswp o) s 0x02 s.slotWord 0)
    ∧ (otherHalf u.issue.addr g → closed = false → ¬ u.cur.mayTransfer → Traps (.bswp o) s 0x02 s.slotWord 0))
  ∧ (∀ (k : Kern) (half : Nat), k.halfClosed half = true ↔
      (if half = 0 then k.ctl.stale0 else k.ctl.stale1) = true
      ∨ ∃ e < 4, ∃ p ∈ (k.port e).q, p.done = false ∧ p.expandsInto half = true)
  ∧ (∀ (o : Op) (s t : State), Runs (.ret o) o s t → (t.cur.ctl.rstack = [] ∨ ¬ t.cur.mayTransfer) → Traps (.ret o) s 0x02 s.slotWord 0)
  ∧ (∀ (o : Op) (s t : State), Runs (.halt o) o s t → t.cur.ctl.handler = true → Traps (.halt o) s 0x02 s.slotWord 0)
  ∧ (∀ (o : Op) (s t : State), Runs (.rft o) o s t → t.cur.ctl.handler = false → Traps (.rft o) s 0x02 s.slotWord 0)

/-- LOOP starts a hardware loop, LBRK ends or drains it, IFENCE ends staleness. Rests on 06 R147, 06 R148, 06 R149, 06 R150, 06 R146. -/
def Obligations.LoopsStartAndEndByDecision : Prop :=
  (∀ (o : Op) (s t u v : State) (x y : SVal), Runs (.loop o) o s t → t.cur.ctl.handler = false → t.cur.ctl.lc1.active = false →
    let level := if t.cur.ctl.lc0.active then t.cur.ctl.lc1 else t.cur.ctl.lc0
    let start := t.issue.addr.toNat + 1
    let n := y.v.toNat
    (if level.susp = true ∧ level.active = false ∧ level.start.toNat = start then x = ⟨level.left.setWidth 64, false, false⟩ ∧ u = t
      else Reads (readScalar o.a) t x u) →
    Reads (readScalar o.b) u y v → x.tagged = false → y.tagged = false → x.v.toNat < 2 ^ 32 → 1 ≤ n → n ≤ 64 →
    (start + n - 1 < 0x3C0 ∨ (0x3C0 ≤ start ∧ start + n - 1 < 0x780 ∧ t.cur.res.is = 2)
      ∨ (0x780 ≤ start ∧ start + n - 1 < 0x800)) →
    (t.cur.ctl.lc0.active = true → t.cur.ctl.lc0.start.toNat ≤ start ∧ start + n - 1 < t.cur.ctl.lc0.start.toNat + t.cur.ctl.lc0.iim1.toNat) →
    let l : LoopReg := ⟨true, t.preempting t.cur, o.m.extractLsb' 0 3, BitVec.ofNat 6 (n - 1), 0, BitVec.ofNat 11 start, x.v.setWidth 32,
      false, false⟩
    let w := v.ctl fun c => if c.lc0.active then { c with lc1 := l } else { c with lc0 := l }
    Ends (.loop o) s w)
  ∧ (∀ (o : Op) (s t : State) (l : LoopReg), Runs (.lbrk o) o s t → t.cur.ctl.handler = false → t.cur.ctl.inner = some l →
    let m : LoopReg := if o.m.getLsbD 0 then { l with drain := true } else { l with last := true }
    let w := t.ctl fun c => if c.lc1.active then { c with lc1 := m } else { c with lc0 := m }
    Ends (.lbrk o) s w)
  ∧ (∀ (o : Op) (s t : State), Runs (.lbrk o) o s t → (t.cur.ctl.handler = true ∨ t.cur.ctl.inner = none) →
    Traps (.lbrk o) s 0x02 s.slotWord 0)
  ∧ (∀ (o : Op) (s t : State), Runs (.ifence o) o s t →
    let w := ((t.fenceCode t.cur.core).ctl fun c => { c with stale0 := false, stale1 := false }).decide fun i => { i with gap := 5 }
    Ends (.ifence o) s w)

/-- A pass of a hardware loop shifts K, begins an iteration or not, and ends as the pass rule says. Rests on 06 R147, 06 R149, 06 R150. -/
def Obligations.LoopPassArithmetic : Prop :=
  ∀ (l : LoopReg) (preempt : Bool),
    let drain := l.drain || preempt
    let k := (l.k <<< 1) &&& BitVec.ofNat 8 (2 ^ (l.sm1.toNat + 1) - 1)
    let begins := decide (l.left ≠ 0) && !drain
    (l.last = true → (l.boundary preempt).1.active = false ∧ (l.boundary preempt).1.left = 0
      ∧ (l.boundary preempt).2 = some (l.start.toNat + l.iim1.toNat + 1))
    ∧ (l.last = false →
      (begins = true → l.boundary preempt = ({ l with drain := drain, k := k ||| 1, left := l.left - 1 }, none))
      ∧ (begins = false → k ≠ 0 → l.boundary preempt = ({ l with drain := drain, k := k }, none))
      ∧ (begins = false → k = 0 → (l.boundary preempt).1.active = false ∧ (l.boundary preempt).1.left = l.left
        ∧ ((l.boundary preempt).1.susp = true ↔ l.susp = true ∨ l.left ≠ 0)
        ∧ (l.boundary preempt).2 = some (if l.left ≠ 0 then l.start.toNat - 1 else l.start.toNat + l.iim1.toNat + 1)))

/-- SYNC, YIELD, WAITX, WAITO and WAITB decide the wait of their bundle, or none where nothing is awaited. Rests on 06 R154, 06 R155, 06 R162, 14 R356. -/
def Obligations.WaitsBeginAfterTheirBundle : Prop :=
  (∀ (o : Op) (s t : State), Runs (.sync o) o s t → t.cur.ctl.handler = false →
    let w := t.decide fun i => { i with wait := .sync (t.issue.bundle.getLsbD 0) }
    Ends (.sync o) s w)
  ∧ (∀ (o : Op) (s t u : State) (a : SVal), Runs (.yield o) o s t → t.cur.ctl.handler = false → Reads (readScalar o.a) t a u →
    a.tagged = false → a.v ≠ 0 → a.v.toNat < 2 ^ 32 → t.cur.seg = none →
    let w := u.decide fun i => { i with wait := .yield a.v.toNat }
    Ends (.yield o) s w)
  ∧ (∀ (o : Op) (s t : State), Runs (.sync o) o s t → t.cur.ctl.handler = true → exec (.sync o) s = .next (s.stopSlot .ctxFault))
  ∧ (∀ (o : Op) (s t u : State) (a : SVal), Runs (.yield o) o s t → Reads (readScalar o.a) t a u → t.cur.ctl.handler = true →
    exec (.yield o) s = .next (s.stopSlot .ctxFault))
  ∧ (∀ (o : Op) (s t u : State) (a : SVal), Runs (.waitx o) o s t → Reads (readScalar o.a) t a u → a.tagged = false →
    let e := (o.m.extractLsb' 0 3).toNat
    let id : BitVec 32 := a.v.setWidth 32
    serialLe id (t.cur.port e).last = true → t.cur.seg = none →
    (serialLe id (t.cur.port e).xdone = false →
      let w := u.decide fun i => { i with wait := .waitx e id }
      Ends (.waitx o) s w)
    ∧ (serialLe id (t.cur.port e).xdone = true → (t.cur.port e).reports = [] → Ends (.waitx o) s u))
  ∧ (∀ (o : Op) (s t : State), Runs (.waito o) o s t →
    let owned := (t.cur.entryKeys o.m.toNat).filter fun key => Tab.get 0 t.cur.own key != 0
    (∀ key ∈ owned, t.cur.names (Tab.get 0 t.cur.own key - 1) key = true ∧ t.cur.heldNames key = false) →
    let w := t.decide fun i => { i with wait := .waito o.m.toNat }
    Ends (.waito o) s w)
  ∧ (∀ (o : Op) (s t : State), Runs (.waitb o) o s t →
    let w := t.decide fun i => { i with wait := .waitb }
    Ends (.waitb o) s w)
  ∧ (∀ (k : Kern) (n : Nat),
    ((∀ key ∈ k.entryKeys n, Tab.get 0 k.own key = 0) → k.waitOf (.waito n) = .none)
    ∧ ((∃ key ∈ k.entryKeys n, Tab.get 0 k.own key ≠ 0) → k.waitOf (.waito n) = .waito n)
    ∧ ((∃ c, ∃ u ∈ k.units, u.2 = .waking c) → k.waitOf .waitb = .waitb)
    ∧ ((∀ c, ∀ u ∈ k.units, u.2 ≠ .waking c) → k.waitOf .waitb = .none))

/-- FENCE places its ordering point, QPOST posts 128 bytes of AB, CUIEN and HALT and RFT decide. Rests on 06 R163, 06 R164, 06 R165, 06 R166, 14 R357. -/
def Obligations.FencesPostsAndFlagsOfControl : Prop :=
  (∀ (o : Op) (s t : State) (kind : Nat), kind < 3 →
    let i := match kind with | 0 => Instr.fenceFull o | 1 => Instr.fenceStore o | _ => Instr.fenceLoad o
    Runs i o s t →
    ∃ x : PItem, x.op = .fence kind ∧ x.scope = (o.m.extractLsb' 2 3).toNat ∧ x.seq = (t.core t.cur.core).pseq ∧ x.kid = t.issue.kid
      ∧ x.st = .waiting ∧ x.held = false ∧ Ends i s ((t.ported x).settlePort t.cur.core)
      ∧ ((∀ y ∈ (t.core t.cur.core).port, y.op.isFence = true ∨ y.st = .performed) →
        dropFences false ((t.core t.cur.core).port ++ [x]) = (t.core t.cur.core).port.filter fun y => !y.op.isFence)
      ∧ ((∃ y ∈ (t.core t.cur.core).port, y.op.isFence = false ∧ y.st ≠ .performed) →
        x ∈ dropFences false ((t.core t.cur.core).port ++ [x])))
  ∧ (∀ (o : Op) (s t u v w : State) (a q : SVal), Runs (.qpost o) o s t → Reads (readScalar o.a) t a u → Reads (readScalar o.b) u q v →
    a.tagged = false → q.tagged = false → a.v.toNat % 128 = 0 → a.v.toNat + 128 ≤ v.cur.limit .ab →
    (do checkOwner .ab a.v.toNat (a.v.toNat + 127); checkAwake .ab a.v.toNat (a.v.toNat + 127) : Slot Unit) v = .ok ((), v) →
    q.v.toNat < 128 → (v.queue q.v.toNat).st ≠ .unbound → (v.queue q.v.toNat).ctx = v.cur.ctx →
    Reads (touchBuf .ab a.v.toNat 128) v () w → w.cur.seg = none → v.cur.seg = none →
    let x := w.postPacket w.issue.kid q.v.toNat (w.cur.ab.mem.read a.v.toNat 128) (w.core v.cur.core).pseq
    Ends (.qpost o) s x)
  ∧ (∀ (on : Bool) (o : Op) (s t : State),
    let i := if on then Instr.cuienOn o else Instr.cuienOff o
    Runs i o s t →
    let w := t.ctl fun c => { c with cuien := on }
    Ends i s w)
  ∧ (∀ (o : Op) (s t : State), Runs (.halt o) o s t → t.cur.ctl.handler = false →
    (t.cur.seg.isSome = true → t.exchanging t.cur.dom = false) →
    exec (.halt o) s = .next (t.decide fun i => { i with halt := true }).advanceSlot)
  ∧ (∀ (o : Op) (s t : State), Runs (.rft o) o s t → t.cur.ctl.handler = true →
    let pc := t.cur.spr.tpc
    pc.toNat / 2 ^ 11 < 7 → isAllotted t.cur.res.is (pc.toNat % 2 ^ 11) = true →
    exec (.rft o) s = .next (t.decide fun i => { i with rft := some pc }).advanceSlot)

/-- TRAP and BRK are taken as traps 0x2A and 0x29 with the value of their source. Rests on 06 R166, 14 R353, 14 R355, 14 R360. -/
def Obligations.TrapAndBreakpointAreTaken : Prop :=
  (∀ (o : Op) (s t u : State) (a : SVal), Runs (.trap o) o s t → Reads (readScalar o.a) t a u → Traps (.trap o) s 0x2A a.v 0)
  ∧ (∀ (o : Op) (s t u : State) (a : SVal), Runs (.brk o) o s t → Reads (readScalar o.a) t a u →
    (u.hub.brk = false → u.hub.debug = false → Traps (.brk o) s 0x29 a.v 0)
    ∧ (u.hub.brk = true ∨ u.hub.debug = true →
      let w := u.decide fun i => { i with wait := .debug }
      Ends (.brk o) s w))

/-- Taking a trap saves the program counter, cause, value and origin, saves the latches and vectors to the handler. Rests on 14 R353, 14 R358, 06 R161. -/
def Obligations.TrapEntrySavesAndVectors : Prop :=
  ∀ (s : State) (k cause slot : Nat) (val : Word) (orig : Origin) (addr : BitVec 11) (x : Kern) (d : Dom),
    s.kern? k = some x → s.dom? x.dom = some d → cause < 0x40 → slot < 8 →
    let t := s.trapEntry k cause val orig addr slot true
    let y := t.kern k
    let target := x.spr.tvec.toNat + 16 * (cause / 16)
    (x.ctl.handler = false → isAllotted x.res.is target = true →
      y.spr = { x.spr with tcause := BitVec.ofNat 8 cause, tpc := BitVec.ofNat 3 slot ++ addr, tval := val, torig := orig }
      ∧ y.latSaved = x.lat ∧ y.lat = [] ∧ y.ctl.handler = true ∧ y.ctl.pc = BitVec.ofNat 11 target ∧ y.ctl.slot = 0 ∧ y.ctl.gap = 6
      ∧ y.ctl.wait = .none ∧ y.ctl.trapAt = addr ∧ y.ctl.trapDcyc = d.dcyc
      ∧ y.ctl.trapStamp = (if x.ctl.wait = .none then d.dcyc else x.ctl.waitDcyc) ∧ y.ctl.boundary = false
      ∧ y.ctl.lc0 = x.ctl.lc0 ∧ y.ctl.lc1 = x.ctl.lc1 ∧ y.ctl.rstack = x.ctl.rstack
      ∧ y.regs = x.regs ∧ y.preds = x.preds ∧ y.masks = x.masks ∧ y.vregs = x.vregs ∧ y.flights = x.flights
      ∧ t.mem = s.mem ∧ t.cores = s.cores ∧ t.hub = s.hub ∧ t.ufaults = s.ufaults
      ∧ (∀ j, j ≠ k → t.kern j = s.kern j)
      ∧ (t.dom? x.dom).map (·.freeze) = some (some (d.freeze.getD (d.dcyc + 5, d.dcyc))))
    ∧ (x.ctl.handler = true ∨ isAllotted x.res.is target = false →
      y.ctl.dead = true ∧ y.spr = x.spr ∧ y.regs = x.regs ∧ y.lat = x.lat ∧ t.mem = s.mem
      ∧ t.ufaults = s.ufaults ++ [⟨x.ctx, 0x02, some k, cause, val, orig, BitVec.ofNat 3 slot ++ addr, 0, 0⟩])

/-- RFT ends the handler, restores the latches of the trapped bundle and resumes at TPC. Rests on 14 R357, 05 R110, 06 R161. -/
def Obligations.ReturnFromHandlerRestores : Prop :=
  ∀ (s : State) (k : Nat) (pc : BitVec 14) (x : Kern), s.kern? k = some x →
    let t := s.returnFromHandler k pc
    let y := t.kern k
    y.ctl.handler = false ∧ y.ctl.froze = false ∧ y.ctl.pc = pc.extractLsb' 0 11 ∧ y.ctl.slot = (pc.extractLsb' 11 3).toNat
    ∧ (x.ctl.froze = false → y.ctl.gap = 4 ∧ y.ctl.resumeAt = x.ctl.resumeAt) ∧ (x.ctl.froze = true → y.ctl.resumeAt = some x.ctl.trapDcyc)
    ∧ y.ctl.boundary = x.ctl.boundary
    ∧ (pc.extractLsb' 0 11 = x.ctl.trapAt → y.lat = x.latSaved) ∧ (pc.extractLsb' 0 11 ≠ x.ctl.trapAt → y.lat = [])
    ∧ y.latSaved = [] ∧ y.spr = x.spr ∧ y.regs = x.regs ∧ y.vregs = x.vregs ∧ y.preds = x.preds ∧ y.masks = x.masks
    ∧ y.ctl.lc0 = x.ctl.lc0 ∧ y.ctl.lc1 = x.ctl.lc1 ∧ y.ctl.rstack = x.ctl.rstack
    ∧ (∀ f ∈ y.flights, f.hnd = true → f.latch = false)
    ∧ t.mem = s.mem ∧ t.cores = s.cores ∧ t.hub = s.hub ∧ (∀ j, j ≠ k → t.kern j = s.kern j)
    ∧ (∀ d, x.ctl.froze = true → s.dom? x.dom = some d → (∀ z ∈ s.kerns, z.dom = x.dom → z.kid ≠ k → ¬ (z.ctl.handler = true ∧ z.ctl.froze = true)) →
      (t.dom? x.dom).map (·.release) = some (some 4))

/-! ## The V slots (07 R170-R195) -/

namespace Sys2Proof.Machine

/-- The lane of a 32-bit element. -/
def laneOf (w64 : Bool) (e : Nat) : Nat := if w64 then e / 2 else e

/-- Element e of a lane's bits. -/
def element32 (w64 : Bool) (e x : Nat) : Nat := if w64 then x / 2 ^ (32 * (e % 2)) % 2 ^ 32 else x % 2 ^ 32

/-- A 32-bit element of a register. -/
def elem (v : VBits) (e : Nat) : Nat := (v.extractLsb' (32 * e) 32).toNat

/-- The instruction puts a vector result in flight to the register DST names: once landed over any content, each 32-bit element
of a lane that `m` selects has the value and the tag of `f`, and every other element is what it was (R172). -/
def WritesVector (i : Instr) (o : Op) (s w : State) (lat : Nat) (fl : BitVec 5) (w64 : Bool) (m : Word) (f : Nat → Nat × Bool) :
    Prop :=
  ∃ (r : VReg) (bytes : BitVec 256) (tagm : Word), r.chk = r.v
    ∧ exec i s = .next
        (w.flown lat (.vreg (if o.nw then none else some o.dst.toNat) r bytes tagm) true fl).advanceSlot
    ∧ ∀ (old : VReg) (e : Nat), e < 64 →
      let n := mergeV r old bytes tagm
      let on := m.getLsbD (laneOf w64 e)
      elem n.v e = (if on then (f e).1 % 2 ^ 32 else elem old.v e)
        ∧ n.tags.getLsbD e = (if on then (f e).2 else old.tags.getLsbD e)

/-- The instruction puts a mask result in flight: once landed over any content, each bit that `sel` selects has the value and the
tag of `f`, and every other bit is what it was (R176). Under NW = 1 no mask is written. -/
def WritesMask (i : Instr) (o : Op) (s w : State) (lat : Nat) (sel : Nat → Bool) (f : Nat → Bool × Bool) : Prop :=
  ∃ (r : MaskReg) (bits : Word), r.chk = r.v
    ∧ exec i s = .next (w.flown lat (if o.nw then .flags else .mask o.dstIdx r bits) false 0).advanceSlot
    ∧ ∀ (old : MaskReg) (e : Nat), e < 64 →
      let n := mergeM r old bits
      n.v.getLsbD e = (if sel e then (f e).1 else old.v.getLsbD e)
        ∧ n.tags.getLsbD e = (if sel e then (f e).2 else old.tags.getLsbD e)

/-- The elements of lanes computed as a list. -/
def fromLanes (w64 : Bool) (l : List Lane) (e : Nat) : Nat × Bool :=
  let x := l.getD (laneOf w64 e) (0, false)
  (element32 w64 e x.1, x.2)

/-- The integer lane operations of R181. -/
def vecIntRows (o : Op) : List IntRow :=
  let n := o.m.getLsbD 1
  [⟨.viadd, 2, fun _ a b => a + b⟩,
   ⟨.visub, 2, fun _ a b => a - b⟩,
   ⟨.vimul, 4, fun _ a b => a * b⟩,
   ⟨.vand, 2, fun _ a b => a &&& b⟩,
   ⟨.vor, 2, fun _ a b => a ||| b⟩,
   ⟨.vxor, 2, fun _ a b => a ^^^ b⟩,
   ⟨.vshl, 2, fun w a b => a <<< (b.toNat % w)⟩,
   ⟨.vshr, 2, fun w a b => a >>> (b.toNat % w)⟩,
   ⟨.vsar, 2, fun w a b => a.sshiftRight (b.toNat % w)⟩,
   ⟨.vimin, 2, fun _ a b => if n then (if a ≤ b then a else b) else if a.sle b then a else b⟩,
   ⟨.vimax, 2, fun _ a b => if n then (if a ≤ b then b else a) else if a.sle b then b else a⟩]

/-- A result on lane patterns of the operation's width. -/
def IntRow.laneValue (r : IntRow) (w64 : Bool) (a b : Nat) : Nat :=
  if w64 then (r.f 64 (BitVec.ofNat 64 a) (BitVec.ofNat 64 b)).toNat else (r.f 32 (BitVec.ofNat 32 a) (BitVec.ofNat 32 b)).toNat

/-- The floating-point lane operations of R177 of two sources, with their binary32 latencies. -/
def vecFpRows : List FpRow :=
  [⟨.vadd, fun d => if d then 8 else 6, fun rm a b => fpAdd rm a b⟩,
   ⟨.vsub, fun d => if d then 8 else 6, fun rm a b => fpAdd rm a b.negate⟩,
   ⟨.vmul, fun d => if d then 8 else 6, fun _ a b => fpMul a b⟩,
   ⟨.vdiv, fun d => if d then 20 else 18, fun _ a b => fpDiv a b⟩]

/-- Those of one source. -/
def vecOneRows : List FpRow :=
  [⟨.vsqrt, fun d => if d then 20 else 18, fun _ a _ => fpSqrt a⟩,
   ⟨.vrcp, fun d => if d then 20 else 18, fun _ a _ => fpRcp a⟩,
   ⟨.vrsq, fun d => if d then 20 else 18, fun _ a _ => fpRsq a⟩,
   ⟨.vexp2, fun d => if d then 12 else 10, fun _ a _ => fpExp2 a⟩,
   ⟨.vlog2, fun d => if d then 12 else 10, fun _ a _ => fpLog2 a⟩]

/-- The fused ones, which read their destination. -/
def vecFusedRows : List ((Op → Instr) × (Nat → FVal → FVal → FVal → Arith FVal)) :=
  [(.vfma, fun rm a b d => fpFma rm a b d),
   (.vfms, fun rm a b d => fpFma rm a b d.negate),
   (.vfnma, fun rm a b d => fpFma rm a.negate b d)]

/-- The origin of a lane that is poison under a type of 05 R125; the float encodings are those of 04 R86. -/
def poisonedLane (ty x : Nat) (tag : Bool) : Option Origin :=
  if tag || (ty == 2 && x / 2 ^ 21 % 2 ^ 10 == 0x3FF) || (ty == 3 && x / 2 ^ 50 % 2 ^ 13 == 0x1FFF) then some (BitVec.ofNat 15 x) else none

/-- The selected lanes of a register that are poison under the type of the operation, with their origins. -/
def poisonAt (o : Op) (a : VOp) (m : Word) (i : Nat) : Option Origin :=
  if m.getLsbD i then poisonedLane (o.m.toNat % 4) (a.lane o.w i) (a.tag o.w i) else none

/-- The block scale of VDQT: poison where one of the elements 0 to 16 is tagged, else the S16 value at bit 512 (04 R100; 07 R185). -/
def blockScale (a : VOp) : Arith FVal :=
  match mergePoison ((List.range 17).map fun i => a.org? false i) with
  | some g => pure (.poison g)
  | none => scaleVal (a.v.extractLsb' 512 16).toNat

/-- The lanes of a floating-point operation, computed in ascending order under the mask. -/
def fpLanes (o : Op) (m : Word) (f : Nat → Arith RVal) : Arith (List Lane) :=
  forLanes m (fun i => do return fpLane (fmtOf o.w) (← f i)) (lanesOf o.w) 0

end Sys2Proof.Machine

/-- The integer lane operations write the selected lanes and leave the others. Rests on 07 R170, 07 R172, 07 R181. -/
def Obligations.IntegerLanes : Prop :=
  ∀ (o : Op), ∀ r ∈ vecIntRows o, ∀ (s t u v w : State) (a b : VOp) (m : Word),
    Runs (r.ins o) o s t → Reads (readVector o.w o.a) t a u → Reads (readVector o.w o.b) u b v → Reads (controlMask o.m75 o.w) v m w →
    w.soft = [] →
    WritesVector (r.ins o) o s w r.lat 0 o.w m fun e =>
      let i := laneOf o.w e
      match mergePoison [a.org? o.w i, b.org? o.w i] with
      | some g => (g.toNat, true)
      | none => (element32 o.w e (r.laneValue o.w (a.lane o.w i) (b.lane o.w i)), false)

/-- The floating-point lane operations round the exact result of each selected lane. Rests on 07 R173, 07 R175, 07 R177, 07 R178. -/
def Obligations.FloatingPointLanes : Prop :=
  (∀ r ∈ vecFpRows, ∀ (o : Op) (s t u v w x : State) (a b : VOp) (m : Word) (l : List Lane) (fl : BitVec 5),
    Runs (r.ins o) o s t → Reads (readVector o.w o.a) t a u → Reads (readVector o.w o.b) u b v → Reads (controlMask o.m75 o.w) v m w →
    Computes (fpLanes o m fun i => do
      roundTo (fmtOf o.w) (← r.f o.rm (laneVal (fmtOf o.w) o.w a i) (laneVal (fmtOf o.w) o.w b i)) o.rm o.sat)
      (a.v.toNat % 2 ^ 128) w l fl x → x.soft = [] →
    WritesVector (r.ins o) o s x (r.lat o.w) fl o.w m (fromLanes o.w l))
  ∧ (∀ r ∈ vecOneRows, ∀ (o : Op) (s t u w x : State) (a : VOp) (m : Word) (l : List Lane) (fl : BitVec 5),
    Runs (r.ins o) o s t → Reads (readVector o.w o.a) t a u → Reads (controlMask o.m75 o.w) u m w →
    Computes (fpLanes o m fun i => do
      roundTo (fmtOf o.w) (← r.f o.rm (laneVal (fmtOf o.w) o.w a i) .foreign) o.rm o.sat) (a.v.toNat % 2 ^ 128) w l fl x → x.soft = [] →
    WritesVector (r.ins o) o s x (r.lat o.w) fl o.w m (fromLanes o.w l))
  ∧ (∀ r ∈ vecFusedRows, ∀ (o : Op) (s t u v y w x : State) (a b d : VOp) (m : Word) (l : List Lane) (fl : BitVec 5),
    Runs (r.1 o) o s t → Reads (readVector o.w o.a) t a u → Reads (readVector o.w o.b) u b v → Reads (readVDest o) v d y →
    Reads (controlMask o.m75 o.w) y m w →
    Computes (fpLanes o m fun i => do
      roundTo (fmtOf o.w) (← r.2 o.rm (laneVal (fmtOf o.w) o.w a i) (laneVal (fmtOf o.w) o.w b i) (laneVal (fmtOf o.w) o.w d i)) o.rm o.sat)
      (a.v.toNat % 2 ^ 128) w l fl x → x.soft = [] →
    WritesVector (r.1 o) o s x (if o.w then 8 else 6) fl o.w m (fromLanes o.w l))
  ∧ (∀ (big : Bool) (o : Op) (s t u v w x : State) (a b : VOp) (m : Word) (l : List Lane) (fl : BitVec 5),
    let i := if big then Instr.vmax o else Instr.vmin o
    Runs i o s t → Reads (readVector o.w o.a) t a u → Reads (readVector o.w o.b) u b v → Reads (controlMask o.m75 o.w) v m w →
    Computes (fpLanes o m fun i => do
      exact (fmtOf o.w) (← fpMinMax big (laneVal (fmtOf o.w) o.w a i) (laneVal (fmtOf o.w) o.w b i))) (a.v.toNat % 2 ^ 128) w l fl x →
    x.soft = [] →
    WritesVector i o s x (if o.w then 4 else 2) fl o.w m (fromLanes o.w l))
  ∧ (∀ (o : Op) (s t u v w x : State) (a b : VOp) (m : Word) (l : List Lane) (fl : BitVec 5),
    Runs (.vsgn o) o s t → Reads (readVector o.w o.a) t a u → Reads (readVector o.w o.b) u b v → Reads (controlMask o.m75 o.w) v m w →
    Computes (fpLanes o m fun i =>
      signOp (fmtOf o.w) (laneVal (fmtOf o.w) o.w a i) (laneVal (fmtOf o.w) o.w b i) (a.lane o.w i) (b.lane o.w i))
      (a.v.toNat % 2 ^ 128) w l fl x → x.soft = [] →
    WritesVector (.vsgn o) o s x (if o.w then 4 else 2) fl o.w m (fromLanes o.w l))
  ∧ (∀ (o : Op) (s t u w : State) (a : VOp) (m : Word),
    Runs (.vclass o) o s t → Reads (readVector o.w o.a) t a u → Reads (controlMask o.m75 o.w) u m w → w.soft = [] →
    WritesVector (.vclass o) o s w (if o.w then 4 else 2) 0 o.w m fun e =>
      (element32 o.w e (2 ^ classBit o.w (a.tag o.w (laneOf o.w e)) (a.lane o.w (laneOf o.w e))), false))

/-- VSEL, VMOV, VBCAST, VPERM, VEXT and VINS move lanes with their tags. Rests on 07 R180, 07 R187, 07 R188, 07 R189, 07 R194. -/
def Obligations.LaneMovement : Prop :=
  (∀ (o : Op) (s t u v w : State) (a b : VOp) (m : Word),
    Runs (.vsel o) o s t → Reads (readVector o.w o.a) t a u → Reads (readVector o.w o.b) u b v → Reads (controlMask o.m75 o.w) v m w →
    w.soft = [] →
    WritesVector (.vsel o) o s w 2 0 o.w (BitVec.allOnes 64) fun e =>
      let x := if m.getLsbD (laneOf o.w e) then a else b
      (elem x.v e, x.tags.getLsbD e))
  ∧ (∀ (o : Op) (s t u w : State) (a : VOp) (m : Word),
    Runs (.vmov o) o s t → Reads (readVector o.w o.a) t a u → Reads (controlMask o.m75 o.w) u m w → w.soft = [] →
    WritesVector (.vmov o) o s w 2 0 o.w m fun e => (elem a.v e, a.tags.getLsbD e))
  ∧ (∀ (o : Op) (s t u w : State) (a : SVal) (m : Word),
    Runs (.vbcast o) o s t → Reads (readScalar o.a) t a u → Reads (controlMask o.m75 o.w) u m w → w.soft = [] →
    WritesVector (.vbcast o) o s w 2 0 o.w m fun e =>
      if o.w && e % 2 == 1 then (a.v.toNat / 2 ^ 32, a.th) else (a.v.toNat % 2 ^ 32, a.tl))
  ∧ (∀ (o : Op) (s t u v w : State) (a b : VOp) (m : Word),
    Runs (.vperm o) o s t → Reads (readVector o.w o.a) t a u → Reads (readVector o.w o.b) u b v → Reads (controlMask o.m75 o.w) v m w →
    w.soft = [] →
    WritesVector (.vperm o) o s w 3 0 o.w m fun e =>
      let i := laneOf o.w e
      match b.org? o.w i with
      | some g => (g.toNat, true)
      | none =>
        let j := b.lane o.w i % lanesOf o.w
        let e' := if o.w then 2 * j + e % 2 else j
        (elem a.v e', a.tags.getLsbD e'))
  ∧ (∀ (o : Op) (s t u v w : State) (a : VOp) (n : SVal) (m : Word),
    Runs (.vext o) o s t → Reads (readVector o.w o.a) t a u → Reads (readScalar o.b) u n v → Reads (controlMask o.m75 o.w) v m w →
    w.soft = [] → n.tagged = false →
    WritesVector (.vext o) o s w 3 0 o.w m fun e =>
      let j := (laneOf o.w e + n.v.toNat) % lanesOf o.w
      let e' := if o.w then 2 * j + e % 2 else j
      (elem a.v e', a.tags.getLsbD e'))
  ∧ (∀ (o : Op) (s t u v w : State) (x n : SVal) (d : VOp),
    Runs (.vins o) o s t → Reads (readScalar o.a) t x u → Reads (readScalar o.b) u n v → Reads (readVDest o) v d w →
    w.soft = [] → n.tagged = false →
    WritesVector (.vins o) o s w 3 0 o.w (BitVec.allOnes 64) fun e =>
      if laneOf o.w e = n.v.toNat % lanesOf o.w then
        (if o.w && e % 2 == 1 then (x.v.toNat / 2 ^ 32, x.th) else (x.v.toNat % 2 ^ 32, x.tl))
      else (elem d.v e, d.tags.getLsbD e))

/-- VCMP, VICMP and MLOG write masks, MPOP and MFIRST count them. Rests on 07 R176, 07 R179, 07 R182, 07 R190, 07 R191. -/
def Obligations.MasksFromLanesAndMasks : Prop :=
  (∀ (o : Op) (s t u v w : State) (a b : VOp) (m : Word),
    Runs (.vicmp o) o s t → Reads (readVector o.w o.a) t a u → Reads (readVector o.w o.b) u b v → Reads (controlMask o.m75 o.w) v m w →
    w.soft = [] →
    WritesMask (.vicmp o) o s w 2 (fun e => m.getLsbD e || (o.w && decide (32 ≤ e))) fun e =>
      if o.w && decide (32 ≤ e) then (false, false)
      else match mergePoison [a.org? o.w e, b.org? o.w e] with
        | some _ => (false, true)
        | none => (intCond o.m41 (laneWidth o.w) (a.lane o.w e) (b.lane o.w e), false))
  ∧ (∀ (o : Op) (s t u v w x : State) (a b : VOp) (m : Word) (l : List (Bool × Option Origin)) (fl : BitVec 5),
    Runs (.vcmp o) o s t → Reads (readVector o.w o.a) t a u → Reads (readVector o.w o.b) u b v → Reads (controlMask o.m75 o.w) v m w →
    Computes (outcomes m (fun i => compareOp o.rm (laneVal (fmtOf o.w) o.w a i) (laneVal (fmtOf o.w) o.w b i)) (lanesOf o.w) 0)
      (a.v.toNat % 2 ^ 128) w l fl x → x.soft = [] →
    WritesMask (.vcmp o) o s x (if o.w then 4 else 2) (fun e => m.getLsbD e || (o.w && decide (32 ≤ e))) fun e =>
      if o.w && decide (32 ≤ e) then (false, false)
      else ((l.getD e (false, none)).1 && (l.getD e (false, none)).2.isNone, (l.getD e (false, none)).2.isSome))
  ∧ (∀ (o : Op) (s t u v : State) (x y : MaskReg),
    Runs (.mlog o) o s t → Reads (readMask o.a.toNat) t x u → Reads (readMask o.b.toNat) u y v → v.soft = [] →
    o.m41 < 8 →
    WritesMask (.mlog o) o s v 1 (fun _ => true) fun e =>
      let p := x.v.getLsbD e
      let q := y.v.getLsbD e
      let g := x.tags.getLsbD e || y.tags.getLsbD e
      (!g && logicTable o.m41 p q, g))
  ∧ (∀ (o : Op) (s t u : State) (x : MaskReg),
    Runs (.mlog o) o s t → Reads (readMask o.a.toNat) t x u → u.soft = [] → (o.m41 = 8 ∨ o.m41 = 9) →
    WritesMask (.mlog o) o s u 1 (fun _ => true) fun e =>
      let g := x.tags.getLsbD e
      (!g && (if o.m41 = 8 then !x.v.getLsbD e else x.v.getLsbD e), g))
  ∧ (∀ (first : Bool) (o : Op) (s t u v w : State) (x y : MaskReg) (m : Word),
    let i := if first then Instr.mfirst o else Instr.mpop o
    Runs i o s t → Reads (readMask o.a.toNat) t x u → Reads (readMask o.b.toNat) u y v → Reads (controlMask o.m75 false) v m w →
    w.soft = [] → x.tags = 0 → y.tags = 0 →
    WritesVector i o s w 1 0 false m fun _ =>
      (if first then (((List.range 64).find? fun j => (x.v &&& y.v).getLsbD j).getD 64) else setBits (x.v &&& y.v), false))

/-- VCVT, VQNT and VDQT convert and quantise the selected elements. Rests on 07 R183, 07 R184, 07 R185, 04 R99, 04 R100, 04 R75. That a descriptor's ILLEGAL comes before POISON-BRANCH (log entry 100) and the tagged 16-bit halves of VCVT (113) are DESIGN CHOICES of the model. -/
def Obligations.ConversionsAndQuantisation : Prop :=
  (∀ (o : Op) (s t u v x : State) (a : VOp) (m : MaskReg) (l : List Lane) (fl : BitVec 5),
    let cv := convOf (o.b &&& 0x1F).toNat
    let h := if o.b.getLsbD 7 then 1 else 0
    let n := cv.sl.count
    let on := fun j => m.v.getLsbD (cv.tl.place h j).2.2.2
    Runs (.vcvt o) o s t → Reads (readVector (cv.sl == .w64) o.a) t a u → Reads (readMask o.m75) u m v → m.tags = 0 →
    Computes (forLanes (bitsFrom 64 ((List.range n).filter on))
        (fun j => do return fpLane cv.tf (← roundTo cv.tf (cv.sl.value cv.sf a h j) o.rm o.sat)) n 0)
      (a.v.toNat % 2 ^ 128) v l fl x → x.soft = [] →
    ∃ (r : VReg) (bytes : BitVec 256) (tagm : Word), r.chk = r.v
      ∧ exec (.vcvt o) s = .next (x.flown (if (o.b &&& 0x1F).toNat ∈ [0, 1, 10, 11, 12, 13, 14, 15] then 6 else 4)
        (.vreg (if o.nw then none else some o.dst.toNat) r bytes tagm) true fl).advanceSlot
      ∧ ∀ old : VReg,
        let z := mergeV r old bytes tagm
        (∀ j < n, on j = true →
          let p := cv.tl.place h j
          (z.v.extractLsb' p.1 p.2.1).toNat = (l.getD j (0, false)).1 % 2 ^ p.2.1
          ∧ ∀ e ∈ p.2.2.1, z.tags.getLsbD e = (!(cv.tl == .e16) && (l.getD j (0, false)).2))
        ∧ (∀ b < 2048, (∀ j < n, on j = true → b < (cv.tl.place h j).1 ∨ (cv.tl.place h j).1 + (cv.tl.place h j).2.1 ≤ b) →
          z.v.getLsbD b = old.v.getLsbD b)
        ∧ (∀ e < 64, (∀ j < n, on j = true → e ∉ (cv.tl.place h j).2.2.1) → z.tags.getLsbD e = old.tags.getLsbD e))
  ∧ (∀ (o : Op) (s t u v w x : State) (a : VOp) (f : Fmt) (m : Word) (scale : Nat) (el : List Nat) (fl : BitVec 5),
    Runs (.vqnt o) o s t → Reads (readVector false o.a) t a u → Reads (quantFormat o) u f v → Reads (controlMask o.m75 false) v m w →
    Computes (quantise f o.rm o.sat (((List.range 64).filter (m.getLsbD ·)).map fun i => laneVal .f32 false a i))
      (a.v.toNat % 2 ^ 128) w (scale, el) fl x → x.soft = [] →
    ∃ r : VReg, r.tags = 0 ∧ r.chk = r.v
      ∧ exec (.vqnt o) s = .next (x.flown 8 (.vreg (if o.nw then none else some o.dst.toNat) r (BitVec.allOnes 256)
          (BitVec.allOnes 64)) true fl).advanceSlot
      ∧ f.w ≤ 8 ∧ (r.v.extractLsb' 512 16).toNat = scale % 2 ^ 16
      ∧ ∀ j < 64, (r.v.extractLsb' (f.w * j) f.w).toNat =
          (if m.getLsbD j then el.getD ((List.range j).countP (m.getLsbD ·)) 0 % 2 ^ f.w else 0))
  ∧ (∀ (o : Op) (s t u v w x : State) (a : VOp) (f : Fmt) (m : Word) (l : List Lane) (fl : BitVec 5),
    Runs (.vdqt o) o s t → Reads (readVector false o.a) t a u → Reads (quantFormat o) u f v → Reads (controlMask o.m75 false) v m w →
    (m ≠ 0 →
    Computes (do
        let scale ← blockScale a
        forLanes m (fun j => do
          let y ← scaledVal (decodeF f (a.v.toNat / 2 ^ (f.w * j))) scale
          return fpLane .f32 (← roundTo .f32 y o.rm o.sat)) 64 0)
      (a.v.toNat % 2 ^ 128) w l fl x → x.soft = [] →
    WritesVector (.vdqt o) o s x 4 fl false m (fromLanes false l))
    ∧ (m = 0 → w.FewOrigins → w.soft = [] →
      WritesVector (.vdqt o) o s (w.settled (a.v.toNat % 2 ^ 128)) 4 0 false 0 (fun _ => (0, false))))
  ∧ (∀ (o : Op), ∀ i ∈ [Instr.vqnt o, .vdqt o], ∀ (s t u v : State) (a : VOp) (m : MaskReg),
    Runs i o s t → Reads (readVector false o.a) t a u → Reads (readMask o.m75) u m v →
    let d := v.cur.fmtDesc o.b.toNat
    (∀ f, Fmt.ofDesc d = some f → f.kind ≠ 0 ∨ f.scaled = false) → Traps i s 0x02 (d.setWidth 64) 0)

/-- VRED and VSCAN combine the selected lanes; the integer sums are the sums of the lanes. Rests on 07 R186, 04 R97. -/
def Obligations.ReductionsAndScans : Prop :=
  (∀ (o : Op) (s t u w x : State) (a : VOp) (m : Word) (r : Option Lane) (fl : BitVec 5),
    Runs (.vred o) o s t → Reads (readVector o.w o.a) t a u → Reads (controlMask o.m75 o.w) u m w →
    Computes (tree o (if o.w then 5 else 6) 2 (selectedLanes o.w a m)) (a.v.toNat % 2 ^ 128) w r fl x → x.soft = [] →
    WritesVector (.vred o) o s x (if o.w && o.b != 3 then 12 else 10) fl o.w (BitVec.allOnes 64) fun e =>
      (element32 o.w e (r.getD (0, false)).1, (r.getD (0, false)).2))
  ∧ (∀ (o : Op) (s t u w x : State) (a : VOp) (m : Word) (l : List Lane) (fl : BitVec 5),
    Runs (.vscan o) o s t → Reads (readVector o.w o.a) t a u → Reads (controlMask o.m75 o.w) u m w →
    Computes (scan o 0 none (selectedLanes o.w a m)) (a.v.toNat % 2 ^ 128) w l fl x → x.soft = [] →
    WritesVector (.vscan o) o s x (if o.w && o.b != 3 then 12 else 10) fl o.w m (fromLanes o.w l))
  ∧ (∀ (o : Op) (a : VOp) (m : Word) (g : Ar), o.b = 3 → a.tags = 0 →
    let w := laneWidth o.w
    let sum := fun n => ((List.range n).filter (m.getLsbD ·)).foldl (fun acc i => acc + a.lane o.w i) 0 % 2 ^ w
    (((tree o (if o.w then 5 else 6) 2 (selectedLanes o.w a m)).run g).1.getD (0, false)) = (sum (lanesOf o.w), false)
    ∧ ∀ i < lanesOf o.w, m.getLsbD i = true →
      ((scan o 0 none (selectedLanes o.w a m)).run g).1.getD i (0, false) = (sum (i + 1), false))

/-- VPTEST, VPCHK and VPSAN test, check and replace poison lanes. Rests on 07 R195, 05 R125, 05 R127. -/
def Obligations.VectorPoisonOperations : Prop :=
  (∀ (o : Op) (s t u w : State) (a : VOp) (m : Word),
    Runs (.vptest o) o s t → Reads (readVector o.w o.a) t a u → Reads (controlMask o.m75 o.w) u m w → w.soft = [] →
    WritesMask (.vptest o) o s w 2 (fun e => m.getLsbD e || (o.w && decide (32 ≤ e))) fun e =>
      (decide (e < lanesOf o.w) && (poisonAt o a m e).isSome, false))
  ∧ (∀ (o : Op) (s t u w : State) (a : VOp) (m : Word),
    Runs (.vpchk o) o s t → Reads (readVector o.w o.a) t a u → Reads (controlMask o.m75 o.w) u m w →
    ((∀ i < lanesOf o.w, poisonAt o a m i = none) → exec (.vpchk o) s = .next w.advanceSlot)
    ∧ (∀ i < lanesOf o.w, ∀ g : Origin, (poisonAt o a m i).isSome = true → (∀ j < i, poisonAt o a m j = none) →
      mergePoison ((List.range (lanesOf o.w)).map (poisonAt o a m)) = some g → Traps (.vpchk o) s 0x13 (BitVec.ofNat 64 i) g))
  ∧ (∀ (o : Op) (s t u v w : State) (a b : VOp) (m : Word),
    Runs (.vpsan o) o s t → Reads (readVector o.w o.a) t a u → Reads (readVector o.w o.b) u b v → Reads (controlMask o.m75 o.w) v m w →
    w.soft = [] →
    let bad := fun i => (poisonAt o a m i).isSome
    let n := ((List.range (lanesOf o.w)).filter bad).length
    let counted := match w.cur.seg with
      | none => w.modCtx w.cur.ctx fun c => { c with san := min (c.san + n) (2 ^ 32 - 1) }
      | some _ => w.modKern w.issue.kid fun k => { k with seg := k.seg.map fun g => { g with sanitise := g.sanitise + n } }
    WritesVector (.vpsan o) o s counted 2 0 o.w m fun e =>
      let x := if bad (laneOf o.w e) then b else a
      (elem x.v e, false))

/-- VLD and VST pop and push streams, ACCRD and ACCWR read and write XS. Rests on 07 R192, 07 R193, 08 R217, 08 R218. -/
def Obligations.VectorBufferAccess : Prop :=
  (∀ (o : Op) (s t u v : State) (x y : Stream) (p : Pop) (rest : List Pop) (m : Word),
    Runs (.vld o) o s t → Tab.get? t.cur.streams o.a.toNat = some x → x.isStore = false → x.pos < x.npops →
    Reads (controlMask o.m75 false) t m u → u.cur.indexCold x x.pos = none → u.cur.popCold x x.pos = none →
    v = (if x.pops.isEmpty then u.fetchPop u.issue.kid o.a.toNat else u) → Tab.get? v.cur.streams o.a.toNat = some y →
    y.pops = p :: rest → v.cur.popFault y y.pos = none → (v.cur.notePop y p).owner = none →
    v.cur.popCold y y.pos = none → v.soft = [] →
    let z := { y with pops := rest, pos := y.pos + 1, vtimes := v.cur.cyc :: y.vtimes.take 3 }
    exec (.vld o) s = .next ((v.modKern v.issue.kid fun k => { k with streams := Tab.set k.streams o.a.toNat z }).flown 3
      (.vreg (if o.nw then none else some o.dst.toNat) ⟨p.r.v, p.r.tags, p.r.v⟩ (laneBytes false m) m) true 0).advanceSlot)
  ∧ (∀ (o : Op) (s t u v w z : State) (a : VOp) (x : Stream) (m : Word),
    Runs (.vst o) o s t → Reads (readVector false o.a) t a u → Tab.get? u.cur.streams o.b.toNat = some x →
    x.isStore = true → x.pos < x.npops → Reads (controlMask o.m75 false) u m v → v.cur.indexCold x x.pos = none →
    Reads (touchRanges .ab (x.indexRanges x.pos)) (v.withOpnd a.v.toNat) () w → w.cur.popFault x x.pos = none →
    let ws := w.cur.pushWrites x x.pos a m
    let n := min x.bytes 4
    (∀ b ∈ ws, w.cur.ownedByte .ab b.addr (b.addr + n - 1) 0 = none ∧ w.cur.coldByte .ab b.addr (b.addr + n - 1) = none) →
    Reads (do for b in ws do logWrite .ab b.addr n : Slot Unit) w () z →
    ∃ y : State, exec (.vst o) s = .next y.advanceSlot
      ∧ Reads (delayWrites 3 .stream ws) (z.modKern z.issue.kid fun k =>
          { k with streams := Tab.set k.streams o.b.toNat { x with pos := x.pos + 1 } }) () y)
  ∧ (∀ (o : Op) (s t u v w z : State) (a : SVal) (n : Nat) (m : Word),
    Runs (.accrd o) o s t → Reads (readScalar o.a) t a u → Reads (xsAddress a) u n v → Reads (controlMask o.m75 false) v m w →
    Reads (touchBuf .xs n 256) (w.withOpnd a.v.toNat) () z → z.soft = [] →
    WritesVector (.accrd o) o s z 5 0 false m fun e =>
      let x := (z.cur.bufAt .xs (z.cur.cyc + 1)).elements256 n
      (elem x.v e, x.tags.getLsbD e))
  ∧ (∀ (o : Op) (s t u v w x z : State) (a : VOp) (d : SVal) (n : Nat) (m : Word),
    Runs (.accwr o) o s t → Reads (readVector false o.a) t a u → Reads (readScalar o.b) u d v → Reads (xsAddress d) v n w →
    Reads (controlMask o.m75 false) w m x → Reads (logWrite .xs n 256) (x.withOpnd a.v.toNat) () z →
    ∃ y : State, exec (.accwr o) s = .next y.advanceSlot
      ∧ Reads (delayWrites 2 .buffer (elementWrites .xs a m fun i => n + 4 * i)) z () y)

/-! ## The M slot (10 R255-R280) -/

namespace Sys2Proof.Machine

/-- No word of a buffer has an error. -/
def Buf.sound (b : Buf) : Prop := b.ue = [] ∧ b.ce = []

/-- No physical fault is to strike, no segment is open, and no word of the buffers has an error. -/
def State.quiet (s : State) : Prop :=
  s.soft = [] ∧ s.cur.seg = none ∧ s.cur.ab.sound ∧ s.cur.ws.sound ∧ s.cur.xs.sound

/-- Every byte range is the core's and awake (10 R258). -/
def Touchable (l : List (BufId × Nat × Nat)) (s : State) : Prop := Reads (checkTouch l) s () s

/-- The kernel with marks of the tile scoreboard added; those that have cleared are gone. -/
def Kern.marked (l : List MMark) (k : Kern) : Kern :=
  { k with mat := { k.mat with marks := (k.mat.marks.filter fun m => decide (k.cyc ≤ m.last)) ++ l } }

/-- A write to come of the instruction that runs: its cycle, its event, its writes of bytes, scales and registers, and the rows of a matrix
operation that its checksums contradict; it names the instruction, its operands, and the origins that this has made (14 R365; 04 R94). -/
def State.later (s : State) (due : Nat) (kind : DKind) (ws : List BWrite) (scales : List (Nat × BitVec 16) := [])
    (regs : List (Nat × VReg) := []) (bad : Bool := false) : DWrite :=
  s.slotWrite ⟨due, kind, ws, [], scales, regs, bad, 0, 0, [], 0, 0⟩

/-- The state with writes to come in the kernel that issues, changes of its matrix state, and marks. -/
def State.matrixed (s : State) (dw : Kern → List DWrite) (f : Mat → Mat) (l : List MMark) : State :=
  (s.modKern s.issue.kid fun k => { k with dw := k.dw ++ dw k, mat := f k.mat }).modKern s.issue.kid (Kern.marked l)

/-- The marks of a multiplication that issues in cycle c (10 R276). -/
def MatOp.marksOf (m : MatOp) (c : Nat) : List MMark :=
  (m.tiles.map fun t => ⟨.tileW, t, t, c + 13 + m.busy, true⟩)
    ++ (m.granules.map fun g => ⟨.granR, g.1, g.2, c + m.busy - 1, false⟩)
    ++ m.abReads.map fun r => ⟨.abR, r.1, r.2, c + m.busy - 1, false⟩

/-- A multiplication folds its rows, from zero or from the tiles, and schedules the results for cycle c + 14 + kb x cpb, marked
where they contradict the checksum column (10 R262, R264, R279); `g` is what it does to the matrix state besides. With no rows
left it does that alone. -/
def Multiplies (i : Op → Instr) (plan : Op → Slot MatOp) (g : MatOp → Mat → Mat) : Prop :=
  ∀ (o : Op) (s t u : State) (m : MatOp),
    Runs (i o) o s t → Reads (plan o) t m u → Touchable m.plan.touch u →
    (m.rows = [] → exec (i o) s = .next (u.modKern u.issue.kid fun k => { k with mat := g m k.mat }).advanceSlot)
    ∧ (∀ (x : State) (r : Tab (List Nat)) (fl : BitVec 5), m.rows ≠ [] → u.quiet →
      let q := m.terms (u.cur.bufLast .ab) (u.cur.bufLast .ws)
      Computes (foldBlocks m q m.kb 0 (m.startRows (u.cur.bufLast .xs))) u.issue.opnd u r fl x →
      let c := u.cur.cyc
      exec (i o) s = .next ((x.matrixed (fun _ => [x.later (c + 14 + m.busy) .matrix (rowWrites r) (bad := m.mismatch q)])
        (fun y => { y with arrayFree := c + m.busy }) (m.marksOf c)).modKern x.issue.kid
          fun k => { k with mat := g m k.mat }).advanceSlot)

end Sys2Proof.Machine

/-- MMA, MMAG and MCONV fold the accumulators and deliver them 14 + kb x cpb cycles later. Rests on 10 R258, 10 R262, 10 R268, 10 R270, 10 R276. -/
def Obligations.MatrixMultiplications : Prop :=
  Multiplies .mma planMma (fun _ y => y)
  ∧ Multiplies .mmag planMmag (fun m y =>
      { y with apos := y.apos + m.rows.length, cpos := y.cpos + m.rows.length, left := y.left - m.rows.length })
  ∧ Multiplies .mconv planMconv (fun _ y => y)

/-- One fold is zero-preserving, exact before its rounding, and poison where a term is poison. Rests on 04 R95, 04 R96, 04 R81, 04 R78. -/
def Obligations.FoldOfABlock : Prop :=
  (∀ (rm : Nat) (sat : Bool) (acc : Nat) (sa sb : Option Nat) (as : List FVal) (bs : List (List FVal)) (g : Ar),
    let r := (takeSR rm).run g
    let u := (scaleOf sa).run r.2
    let v := (scaleOf sb).run u.2
    let terms := decodeF .f32 acc :: u.1 :: v.1 :: as ++ bs.flatten
    let folded := (fold rm sat acc sa sb as bs).run g
    folded.2.g = (if rm = 4 then stepLFSRn 24 g.g else g.g)
    ∧ (∀ (o : Origin) (h : Ar), (gather terms).run v.2 = (some o, h) → folded.1 = poisonBits .f32 o)
    ∧ (∀ h : Ar, (gather terms).run v.2 = (none, h) → blockSum as bs = none →
        folded.1 = poisonBits .f32 ((newOrigin kNANGEN).run h).1)
    ∧ ((∀ x ∈ terms, ∃ y : Ex, x = .fin y) →
        ∀ c d y z : Ex, u.1 = .fin c → v.1 = .fin d → blockSum as bs = some (.fin y) → decodeF .f32 acc = .fin z →
        let p := exMul (exMul c d) y
        (p.isZero = true → folded.1 = acc)
        ∧ (p.isZero = false →
          folded.1 = match ((roundFin .f32 (exSum (rm == 3) z p) r.1 rm sat).run v.2).1 with
            | .bits n => n
            | .poison o => poisonBits .f32 o)))
  ∧ (∀ (w : Nat) (g : Ar),
    let e : Nat := w / 2 ^ 7 % 2 ^ 8
    (w < 2 ^ 15 → 0 < e → e < 255 → (scaleOf (some w)).run g = (.fin ⟨false, 128 + w % 2 ^ 7, (e : Int) - 134, false⟩, g))
    ∧ (w < 2 ^ 15 → e = 0 → ∃ x : Ex, x.m = 0 ∧ x.st = false ∧ (scaleOf (some w)).run g = (.fin x, g))
    ∧ (w < 2 ^ 15 → e = 255 → ((scaleOf (some w)).run g).1 = .poison ((newOrigin kBADSCALE).run g).1)
    ∧ (2 ^ 15 ≤ w → (scaleOf (some w)).run g = (.poison (BitVec.ofNat 15 w), g)))

/-- WLD writes its granules; ACCZ clears a tile; ACCST and ACCLD move one out and in. Rests on 10 R271, 10 R272, 10 R273, 10 R274, 10 R275. -/
def Obligations.WeightLoadsAndTileMoves : Prop :=
  (∀ (o : Op) (s t u : State) (w : WldOp),
    Runs (.wld o) o s t → Reads (planWld o) t w u → Touchable w.plan.touch u → u.quiet →
    let c := u.cur.cyc
    let x := u.cur.bufLast .ab
    let per := fieldWidth w.f / 4
    exec (.wld o) s = .next (u.matrixed
      (fun _ => (List.range w.granules).map fun i => u.later (c + 2 * (i + 1)) .granule (w.granule x (i / per) (i % per))
        (if i % per = 0 then w.scales x (i / per) else []))
      (fun y => { y with wldFree := c + 2 * w.granules })
      (((List.range w.granules).map fun i => ⟨.granW, w.base / 2048 + i, w.base / 2048 + i, c + 2 * (i + 1) - 1, false⟩)
        ++ w.reads.map fun r => ⟨.abR, r.1, r.2, c + 2 * w.granules - 1, false⟩)).advanceSlot)
  ∧ (∀ (o : Op) (s t : State),
    Runs (.accz o) o s t → tileOf o < t.cur.tiles → Touchable [tileRange (tileOf o)] t → t.quiet →
    exec (.accz o) s = .next (t.matrixed
      (fun k => [t.later (k.cyc + 2) .buffer [⟨.xs, 8192 * tileOf o, List.replicate 8192 0, none⟩]])
      (fun y => y) [⟨.tileW, tileOf o, tileOf o, t.cur.cyc + 1, false⟩]).advanceSlot)
  ∧ (∀ (o : Op) (s t u x : State) (p : StoreOp) (rows : List (Option Nat × List (Nat × Option Origin))) (fl : BitVec 5),
    Runs (.accst o) o s t → Reads (planAccst o) t p u → Touchable p.plan.touch u → u.quiet →
    Computes ((List.range p.rows).mapM fun i => accConvert p.f p.rm p.sat (accRow (u.cur.bufLast .xs) p.tile p.cols i)) u.issue.opnd u rows fl x →
    let c := u.cur.cyc
    exec (.accst o) s = .next ((x.matrixed
      (fun _ => [match p.tens with
        | some y => x.slotWrite { p.abWrite y rows with due := c + 12 }
        | none => x.later (c + 12) .accst [] (regs := ((List.range p.rows).zip rows).map fun r => (p.bank + r.1, lentRegister p.f r.2))])
      (fun y => { y with storeFree := c + 8 })
      (⟨.tileR, p.tile, p.tile, c + 8, false⟩ :: p.ranges.map fun r => ⟨.abW, r.1, r.2, c + 11, false⟩)).flown 12 .flags
        false fl).advanceSlot)
  ∧ (∀ (o : Op) (s t u x : State) (p : StoreOp) (y : Tens) (rows : List (List Nat)) (fl : BitVec 5),
    Runs (.accld o) o s t → Reads (planAccld o) t p u → Touchable p.plan.touch u → u.quiet → p.tens = some y →
    Computes ((List.range p.rows).mapM fun i => (List.range p.cols).mapM fun j =>
      widen ((u.cur.bufLast .ab).operand p.f (y.rowBit (p.row0 + i) (64 * p.colb + j)))) u.issue.opnd u rows fl x →
    let c := u.cur.cyc
    exec (.accld o) s = .next (x.matrixed
      (fun k => [x.later (k.cyc + 12) .buffer (((List.range p.rows).zip rows).map fun r => ⟨.xs, elemAt (p.tile * 32 + r.1) 0, wordBytes r.2, none⟩)])
      (fun z => { z with storeFree := c + 8 })
      (⟨.tileW, p.tile, p.tile, c + 11, false⟩ :: p.ranges.map fun r => ⟨.abR, r.1, r.2, c + 8, false⟩)).advanceSlot)

/-! ## The E slot (06 R156-R160; 08 R211-R226; 09 R240-R245; 11 R301-R303; 12 R315-R318; 16 R414) -/

namespace Sys2Proof.Machine

/-- The operation of an EGO joins its engine's queue (09 R243, 08 R212): the next transfer identifier, the captured shadow set and
tensors, the regions it covers; every region of CORE among them becomes the engine's. -/
def State.queued (s : State) (o : Op) (e : Nat) (tens : List Tens) (keys : List Nat) (held : Bool) : State :=
  let k := s.cur
  let id := (k.port e).last + 1
  let op : Eop := ⟨id, o.m.toNat, o.b.getLsbD 3, (k.port e).sh, tens, keys, (s.core k.core).pseq, k.cyc, held, false, false⟩
  (s.modKern s.issue.kid fun y => (y.giveRegions e keys).modPort e fun p => { p with last := id, q := p.q ++ [op] }).flown 1
    (.sreg (destOf o k) (Reg.ofWord (id.setWidth 64))) true 0

/-- The kernel with an operation held by its open segment g, and folded into its signature (14 R376, R379). -/
def Kern.holding (g : Seg) (slot : Nat) (h : HeldOp) (k : Kern) : Kern :=
  ({ k with seg := some { g with held := g.held ++ [h] } }).signature (8 * k.cyc + slot) [h.code]

/-- An exchange is noted in the issuer's segment; where it has none, in those that the cores of its domain have open (06 R159). -/
def State.noted (s : State) : State :=
  match s.cur.seg with
  | some g => s.modKern s.issue.kid fun y => { y with seg := some { g with exchange := true } }
  | none =>
    if s.cur.resil then { s with kerns := s.kerns.map fun (y : Kern) =>
      if y.dom = s.cur.dom then { y with seg := y.seg.map fun g => { g with exchange := true } } else y }
    else s

/-- An exchange of the issuer breaks R159: a core of its domain opened its segment at no rendezvous, or the bundle closes its own. -/
def State.strays (s : State) : Prop :=
  (s.cur.seg.isSome = true ∧ (s.strayOpening s.cur.dom = true ∨ s.issue.closes = true))
    ∨ (s.cur.seg = none ∧ s.cur.resil = true ∧ s.strayOpening s.cur.dom = true)

/-- An EGO of engine e, its own checks passed with the captured tensors `ts` and the regions `more` besides theirs. -/
def Launches (i : Op → Instr) (e : Op → Nat) (plan : Op → Slot (List Tens)) (more : Kern → List (BufId × Nat × Nat)) : Prop :=
  ∀ (o : Op) (s t u : State) (ts : List Tens), Runs (i o) o s t → Reads (plan o) t ts u →
    let p := u.cur.port (e o)
    let keys := dedup (coveredKeys ts ++ (more u.cur).flatMap fun r => regionKeys r.1 r.2.1 r.2.2)
    let free := fun key => Tab.get 0 u.cur.own key = 0 ∨ Tab.get 0 u.cur.own key = e o + 1
    (16 ≤ p.outstanding → Traps (i o) s 0x02 s.slotWord 0)
    ∧ (p.outstanding < 16 → (∀ key ∈ keys, free key) → u.cur.coldTensor ts = none →
      (∀ r ∈ more u.cur, u.cur.coldByte r.1 r.2.1 r.2.2 = none) → u.soft = [] →
      (u.cur.seg = none → exec (i o) s = .next (u.queued o (e o) ts keys false).advanceSlot)
      ∧ (∀ g : Seg, u.cur.seg = some g → g.heldStores + g.held.length < 16 →
        exec (i o) s = .next ((u.modKern u.issue.kid (Kern.holding g u.issue.slot (.ego (e o) (p.last + 1)))).queued o (e o) ts keys true).advanceSlot))
    ∧ (p.outstanding < 16 → ∀ key ∈ keys, ¬ free key → ∃ bad ∈ keys, ¬ free bad
      ∧ Traps (i o) s 0x05 (BitVec.ofNat 64 (regionAddr bad)) 0)

end Sys2Proof.Machine

/-- Every EGO whose checks pass queues its operation and takes over its regions. Rests on 08 R212, 09 R243, 09 R245, 11 R303, 12 R318, 14 R376, 16 R414. Whether LSEND may read XS, which R198 and R414 answer differently, is a free value within planLink: log entry 26, a DESIGN CHOICE. -/
def Obligations.EngineOperationsQueue : Prop :=
  Launches .egoCopy Op.egoEngine planCopy (fun _ => [])
  ∧ (∀ i ∈ [Instr.egoMerge, .egoInter, .egoExpand, .egoHist, .egoPsum, .egoHbuild, .egoHprobe, .egoRules, .egoNnz],
    Launches i (fun _ => 4) planKey (fun _ => []))
  ∧ (∀ i ∈ [(Instr.egoCload, planCload), (.egoEval, planEval), (.egoPupd, planPupd), (.egoCstat, planCstat)],
    Launches i.1 (fun _ => 5) (fun _ => i.2) Kern.nsRange)
  ∧ Launches .egoPflip (fun _ => 5) (fun _ => do circFields []; return []) (fun _ => [])
  ∧ (∀ i ∈ [Instr.egoLsend, .egoLrecv, .egoLradd], Launches i (fun _ => 6) planLink (fun _ => []))

/-- OWN and BPWR hand over regions and switch units, BWPH sets the phase. Rests on 08 R203, 08 R225, 08 R226, 09 R240, 14 R376, 14 R379. TVAL of an OWN whose entry fails R209 is the index or a failing descriptor, a free value: log entry 26, a DESIGN CHOICE. -/
def Obligations.OwnersAndUnitPower : Prop :=
  (∀ (o : Op) (s t : State), Runs (.ownGive o) o s t → t.cur.tensorOk o.a.toNat = true →
    let e := (o.m.extractLsb' 0 3).toNat
    let keys := t.cur.entryKeys o.a.toNat
    (∀ key ∈ keys, Tab.get 0 t.cur.own key = 0 ∨ Tab.get 0 t.cur.own key = e + 1) →
    exec (.ownGive o) s = .next (t.modKern t.issue.kid fun k => k.giveRegions e keys).advanceSlot)
  ∧ (∀ (o : Op) (s t : State), Runs (.ownTake o) o s t → t.cur.tensorOk o.a.toNat = true →
    let e := (o.m.extractLsb' 0 3).toNat
    let keys := t.cur.entryKeys o.a.toNat
    (∀ key ∈ keys, Tab.get 0 t.cur.own key = 0 ∨ Tab.get 0 t.cur.own key = e + 1) →
    ((∀ key ∈ keys, t.cur.names e key = false) →
      exec (.ownTake o) s = .next (t.modKern t.issue.kid fun k =>
        k.takeRegions (keys.filter fun key => Tab.get 0 k.own key == e + 1)).advanceSlot)
    ∧ ((∃ key ∈ keys, t.cur.names e key = true) → ∃ key ∈ keys, Traps (.ownTake o) s 0x05 (BitVec.ofNat 64 (regionAddr key)) 0))
  ∧ (∀ i ∈ [Instr.ownGive, .ownTake], ∀ (o : Op) (s t : State), Runs (i o) o s t →
    (t.cur.tensorOk o.a.toNat = false → ∃ v ∈ o.a.toNat :: t.cur.badDescs o.a.toNat, Traps (i o) s 0x02 (BitVec.ofNat 64 v) 0)
    ∧ (t.cur.tensorOk o.a.toNat = true →
      (∃ key ∈ t.cur.entryKeys o.a.toNat, Tab.get 0 t.cur.own key ≠ 0 ∧ Tab.get 0 t.cur.own key ≠ (o.m.extractLsb' 0 3).toNat + 1) →
      ∃ key ∈ t.cur.entryKeys o.a.toNat, Traps (i o) s 0x05 (BitVec.ofNat 64 (regionAddr key)) 0))
  ∧ (∀ (o : Op) (s t u : State) (b : BufId) (l : List Nat), Reads (powerUnits o) t (b, l) u →
    (Runs (.bpwrRetain o) o s t → (∀ n ∈ l, u.cur.ownedByte b (n * unitBytes b) (n * unitBytes b + unitBytes b - 1) 0 = none) →
      exec (.bpwrRetain o) s = .next (u.modKern u.issue.kid fun k => l.foldl (fun k n => k.setUnit b n .retained) k).advanceSlot)
    ∧ (Runs (.bpwrWake o) o s t →
      exec (.bpwrWake o) s = .next (u.modKern u.issue.kid fun k =>
        l.foldl (fun k n => if k.unit b n = .retained then k.setUnit b n (.waking (k.cyc + 96)) else k) k).advanceSlot))
  ∧ (∀ (o : Op) (s t u : State) (a : SVal), Runs (.bwph o) o s t → Reads (readScalar o.a) t a u →
    (a.tagged = true → Traps (.bwph o) s 0x10 s.slotWord a.origin)
    ∧ (a.tagged = false → (2 ^ 42 ≤ a.v.toNat ∨ a.v.extractLsb' 40 2 = 3) → Traps (.bwph o) s 0x02 a.v 0)
    ∧ (a.tagged = false → a.v.toNat < 2 ^ 42 → a.v.extractLsb' 40 2 ≠ 3 → u.cur.seg = none →
      let v := u.modKern u.issue.kid fun k => { k with spr := { k.spr with bwphase := a.v.setWidth 42 } }
      exec (.bwph o) s = .next (State.advanceSlot { v with hub := { v.hub with bwq := v.hub.bwq ++ [(u.cur.ctx, a.v.setWidth 42)] } }))
    ∧ (∀ g : Seg, a.tagged = false → a.v.toNat < 2 ^ 42 → a.v.extractLsb' 40 2 ≠ 3 → u.cur.seg = some g →
      g.heldStores + g.held.length < 16 →
      let v := u.modKern u.issue.kid fun k => { k with spr := { k.spr with bwphase := a.v.setWidth 42 } }
      let w := v.modKern u.issue.kid (Kern.holding g u.issue.slot (.bwph (a.v.setWidth 42)))
      exec (.bwph o) s = .next w.advanceSlot ∧ w.hub.bwq = u.hub.bwq))

/-- XSEND puts a register on its way, XRECV stores the oldest one that has arrived. Rests on 06 R156, 06 R157, 06 R158, 06 R159, 06 R160. -/
def Obligations.ExchangeOfVectors : Prop :=
  (∀ (o : Op) (s t u v : State) (x : VOp) (c : SVal),
    Runs (.xsend o) o s t → Reads (readVector false o.a) t x u → Reads (partnerCoord o) u c v →
    (c.tagged = true → Traps (.xsend o) s 0x11 s.slotWord c.origin)
    ∧ (c.tagged = false → (∀ y ∈ v.kerns, y.dom = v.cur.dom → c.v ≠ BitVec.ofNat 64 y.coordNat) → Traps (.xsend o) s 0x02 c.v 0)
    ∧ (∀ (p : Kern), c.tagged = false → Reads (partnerOf c.v) v p v →
      let send := fun (w : State) => (w.modKern p.kid fun y => { y with inbox := y.inbox ++
        [⟨w.cur.coordNat, w.dcyc w.cur.dom + 4 + 2 * hops w.cur.core p.core, ⟨x.v, x.tags, x.v⟩, .flying⟩] }).advanceSlot
      let broken := ∃ d, v.dom? v.cur.dom = some d ∧ d.broken = true
      (v.strays → exec (.xsend o) s = .next (s.stopSlot (.segment 6)))
      ∧ (¬ v.strays → broken → Traps (.xsend o) s 0x20 (BitVec.ofNat 64 (4 * 2 ^ 16 + c.v.toNat % 2 ^ 10)) 0)
      ∧ (¬ v.strays → ¬ broken → exec (.xsend o) s = .next (send v.noted))))
  ∧ (∀ (o : Op) (s t u v : State) (a c : SVal),
    Runs (.xrecv o) o s t → Reads (readScalar o.a) t a u → Reads (partnerCoord o) u c v →
    let b := if o.m.getLsbD 2 then BufId.xs else .ab
    let addr := (if o.m.getLsbD 2 then 64 else 1) * a.v.toNat
    let broken := ∃ d, v.dom? v.cur.dom = some d ∧ d.broken = true
    (∀ g, mergePoison [a.org?, c.org?] = some g → Traps (.xrecv o) s 0x11 s.slotWord g)
    ∧ (a.tagged = false → c.tagged = false →
      (addr % 256 ≠ 0 → Traps (.xrecv o) s 0x09 a.v 0)
      ∧ (addr % 256 = 0 → v.cur.limit b < addr + 256 → Traps (.xrecv o) s 0x02 s.slotWord 0)
      ∧ (addr % 256 = 0 → addr + 256 ≤ v.cur.limit b → v.strays → exec (.xrecv o) s = .next (s.stopSlot (.segment 6)))
      ∧ (addr % 256 = 0 → addr + 256 ≤ v.cur.limit b → ¬ v.strays → broken →
        Traps (.xrecv o) s 0x20 (BitVec.ofNat 64 (4 * 2 ^ 16 + c.v.toNat % 2 ^ 10)) 0)
      ∧ (addr % 256 = 0 → addr + 256 ≤ v.cur.limit b → ¬ v.strays → ¬ broken →
        v.cur.ownedByte b addr (addr + 255) 0 = none → v.cur.coldByte b addr (addr + 255) = none →
        (oldestEntry c.v.toNat (v.dcyc v.cur.dom) v.cur.inbox = none →
          Traps (.xrecv o) s 0x20 (BitVec.ofNat 64 (2 ^ 16 + c.v.toNat % 2 ^ 10)) 0)
        ∧ (∀ (i : Nat) (e : XEntry), oldestEntry c.v.toNat (v.dcyc v.cur.dom) v.cur.inbox = some (i, e) →
          let ws := (List.range 64).map fun j =>
            let x := e.r.v.extractLsb' (32 * j) 32
            if e.r.tags.getLsbD j then (⟨b, addr + 4 * j, [], some (x.setWidth 15)⟩ : BWrite) else ⟨b, addr + 4 * j, leBytes 4 x.toNat, none⟩
          ∀ w : State, Reads (logWrite b addr 256) (v.withOpnd (packNat 64 [a.v.toNat, c.v.toNat])).noted () w →
          exec (.xrecv o) s = .next ((w.modKern w.issue.kid fun y =>
            { y with inbox := modifyAt (fun z => { z with st := .matched }) y.inbox i }).modKern w.issue.kid fun k =>
              { k with dw := k.dw ++ [w.later (k.cyc + 2) .exchange ws] }).advanceSlot))))

/-! ## Events of a core -/

namespace Sys2Proof.Machine

/-- The event answers a next state of which P holds. -/
def Leads (i : Instr) (s : State) (P : State → Prop) : Prop := ∃ t, exec i s = .next t ∧ P t

/-- The kernel is there and P holds of it. -/
def State.has (s : State) (k : Nat) (P : Kern → Prop) : Prop := ∃ y, s.kern? k = some y ∧ P y

/-- No buffer of the kernel holds an uncorrectable word. -/
def Kern.clean (k : Kern) : Prop := k.ab.ue = [] ∧ k.ws.ue = [] ∧ k.xs.ue = [] ∧ k.ns.ue = []

/-- A buffer write leaves a byte alone: another buffer, or outside its bytes, or outside the sector it marks. -/
def BWrite.spares (w : BWrite) (b : BufId) (a : Nat) : Prop :=
  w.buf ≠ b ∨ match w.mark with | none => a < w.addr ∨ w.addr + w.bytes.length ≤ a | some _ => w.addr / 32 ≠ a / 32

/-- A buffer write gives a byte its value. -/
def BWrite.gives (w : BWrite) (b : BufId) (a : Nat) : Prop :=
  w.buf = b ∧ w.mark = none ∧ w.addr ≤ a ∧ a < w.addr + w.bytes.length

/-- An AMO that has been performed stands in its port with its result; a RED has left it. `u` is the state in which it was to leave. -/
def Answered (u t : State) (c : Nat) (i : PItem) (op : Nat) (r : Word × Option Origin) : Prop :=
  (i.op = .amo op → ∃ y ∈ (t.core c).port, y.seq = i.seq ∧ y.st = .performed ∧ y.result = some r)
  ∧ (i.op = .red op → t.cores = ((u.dropItem c i.seq).settlePort c).cores)

/-- The new value that an integer AMO or RED gives a word of w bits: of what memory holds, the operand, CAS's compare value. -/
def atomicResult (op : Nat) {w : Nat} (m v c : BitVec w) : BitVec w :=
  match op with
  | 0 => m + v
  | 2 => if v.slt m then v else m
  | 3 => if m.slt v then v else m
  | 4 => if v.ult m then v else m
  | 5 => if m.ult v then v else m
  | 6 => m &&& v
  | 7 => m ||| v
  | 8 => m ^^^ v
  | 9 => v
  | _ => if m = c then v else m

/-- Entry x of core c's port stands at the head of line queue ln, which is free to perform it, on a page without ENC, and the
sectors of its bytes hold no error and no mark. -/
def State.readyToPerform (s : State) (ln c : Nat) (x : LEntry) (rest : List LEntry) (i : PItem) : Prop :=
  s.line ln = x :: rest ∧ groupOf x.pa < Config.groups ∧ (s.pan (groupOf x.pa)).st = .active ∧ (s.pan (groupOf x.pa)).init = false
  ∧ x.agent = .port c i.seq ∧ (s.core c).port.find? (fun y => y.seq == i.seq) = some i
  ∧ ln = x.pa / 64 ∧ x.pa % i.len = 0 ∧ x.tr.pa = x.pa ∧ x.tr.enc = false ∧ s.lineTag ln = 0
  ∧ ∀ n ∈ sectorsOf x.pa i.len, s.ue.contains n = false ∧ s.physMark n = none

/-- The bytes of an entry's stores at their physical addresses, oldest first. -/
def PItem.stored (i : PItem) (pa : Nat) (m : Memory) : Memory :=
  i.parts.foldl (fun m p => m.writeAll (pa + p.va - i.va) (leBytes p.len p.data.toNat)) m

/-- The events of delayed writes. -/
def delayedEvents : List (DKind × (Nat → Instr)) :=
  [(.stream, .streamStoreWrite), (.buffer, .bufferWriteTakesEffect), (.matrix, .matrixResultValid), (.granule, .wldGranuleWrite),
   (.accst, .accstDelivery), (.exchange, .bufferWriteTakesEffect)]

end Sys2Proof.Machine

/-- BUNDLE_ISSUE begins a bundle or holds it; owed traps and stops come before it. Rests on 03 R48, 06 R140, 06 R158, 06 R162, 06 R163, 06 R169, 14 R356, 14 R359, 14 R360, 14 R372, 14 R377. The clause of an exchange segment closed by a CKPT bundle, SLOT 0 and reason 6, is DEDUCED: log entry 32. -/
def Obligations.BundlesAndWhatPrecedesThem : Prop :=
  (∀ (s : State) (k : Nat) (x : Kern), s.kern? k = some x → s.atBundle x = true → s.before x = none →
    (x.waiting = true → exec (.bundleIssue k) s = .next (s.holdIssue x ⟨true, none⟩))
    ∧ (∀ (e : Nat) (id : BitVec 32), x.waiting = false → x.ctl.wait = .waitx e id →
      ((x.port e).report id = none → Leads (.bundleIssue k) s fun t => t.mem = s.mem ∧ t.has k fun y => y = { x with ctl := { x.ctl with wait := .none } })
      ∧ (∀ r : BitVec 32 × Origin, (x.port e).report id = some r → exec (.bundleIssue k) s = .next
          ((s.modKern k fun y => y.modPort e fun p => p.clearReport r.1).trapEntry k 0x12 (r.1.setWidth 64) r.2 x.ctl.waitAt 0 true))))
  ∧ (∀ (s : State) (k : Nat) (x : Kern), s.kern? k = some x → s.atBundle x = true → s.before x = none →
    x.waiting = false → x.ctl.wait = .none → (x.ctl.segDue = none ∨ x.seg.isSome = true) →
    let b := s.nextBundle x
    let h := bundleHeader b
    let u := s.correctFetch x.core x.ctl.pc.toNat
    ((s.core x.core).isUe.contains x.ctl.pc.toNat = true →
      exec (.bundleIssue k) s = .next (u.uncontained x.kid 0x07 0 0 0 (pcValue x.ctl.pc x.ctl.slot) 0 0))
    ∧ ((s.core x.core).isUe.contains x.ctl.pc.toNat = false →
      (headerOk b = false → exec (.bundleIssue k) s = .next (u.trapEntry x.kid 0x02 (h.setWidth 64) 0 x.ctl.pc 0 true))
      ∧ (∀ (src : Nat) (rest : List Nat), headerOk b = true → x.ctl.handler = false → x.ctl.slot = 0 → x.ctl.xOwed = src :: rest →
        exec (.bundleIssue k) s = .next ((u.modKern k fun y => { y with ctl := { y.ctl with xOwed := rest } }).trapEntry k 0x20
          (BitVec.ofNat 64 (3 * 2 ^ 16 + src)) 0 x.ctl.pc 0 true))
      ∧ (headerOk b = true → x.ctl.handler = true → (hdrPresent h 5 || hdrPresent h 6) = true →
        exec (.bundleIssue k) s = .next (u.uncontained x.kid 0x02 0 0 0 (pcValue x.ctl.pc x.ctl.slot) 0 0))
      ∧ (headerOk b = true → (x.ctl.xOwed = [] ∨ x.ctl.slot ≠ 0) → x.ctl.handler = false →
        (u.cutsExchange x = true → exec (.bundleIssue k) s = .next (u.uncontained x.kid 0x03 0x22 6 0 (pcValue x.ctl.pc 0) 0 0))
        ∧ (∀ y : Hold, u.cutsExchange x = false → u.hold? x b = some y → exec (.bundleIssue k) s = .next (u.holdIssue x y))
        ∧ (u.cutsExchange x = false → u.hold? x b = none → x.seg = none → hdrCkpt h = false → x.ctl.slot = 0 → hdrPresent h 0 = true →
          Leads (.bundleIssue k) s fun t => t.issue = { Issue.none with active := true, kid := x.kid, bundle := b, addr := x.ctl.pc }
            ∧ t.mem = s.mem ∧ t.has k fun y => y = { x with ctl := { x.ctl with xlate := none, tried := true } }))))
  ∧ (∀ (s : State) (k : Nat) (x : Kern), s.kern? k = some x →
    (s.before x = some (.fpTrap k) → exec (.fpTrap k) s = .next
      ((s.modKern k fun y => { y with spr := { y.spr with fpOwed := y.spr.fpOwed.drop 1 } }).trapEntry k 0x18
        (x.spr.fpOwed.headD 0) 0 x.ctl.pc 0 true))
    ∧ (s.before x = some (.step k) →
      let t := (s.modKern k fun y => { y with ctl := { y.ctl with stepOwed := false } }).breakWindow x.dom
      (s.hub.debug = false → exec (.step k) s = .next (t.trapEntry k 0x28 0 0 x.ctl.pc 0 true))
      ∧ (s.hub.debug = true → exec (.step k) s = .next (t.modKern k fun y => { y with ctl := { y.ctl with wait := .debug, waitAt := x.ctl.pc } })))
    ∧ (∀ c : Nat × BitVec 32, s.before x = some (.cui k) → firstCui x.ctl.cui = some c →
      exec (.cui k) s = .next ((s.modKern k fun y => { y with ctl := { y.ctl with cui := removeFirst c y.ctl.cui } }).trapEntry k 0x30
        (BitVec.ofNat 64 (c.1 + 2 ^ 32 * c.2.toNat)) 0 (if x.waiting then x.ctl.waitAt else x.ctl.pc) 0 false))
    ∧ (s.before x = some (.preemptionPointStop k) →
      Leads (.preemptionPointStop k) s fun t => t.dom? x.dom = (s.dom? x.dom).map Dom.noteStop
        ∧ t.has k fun y => y = { x with ctl := { x.ctl with stopped := true } }))

/-- STORE_LEAVE, LOAD_SEND, ENGINE_ACCESS and INGRESS_MOVE put accesses at the tail of their line queue. Rests on 09 R235, 13 R333, 13 R335, 13 R345, 13 R346, 13 R350. -/
def Obligations.AccessesReachTheirLines : Prop :=
  (∀ (s : State) (c j : Nat) (x : PItem) (y : Trans), s.access? c j = some (x, y) →
    (x.op.isEntry = true → s.mayGo c x y = true →
      Leads (.storeLeave c j) s fun t => t.mem = s.mem ∧ ∃ e : LEntry, t.line (y.pa / 64) = s.line (y.pa / 64) ++ [e]
        ∧ e.agent = .port c x.seq ∧ e.pa = y.pa ∧ e.write = true ∧ e.len = x.len)
    ∧ (x.op.isMld = true → s.answer c x y = .send → s.mayGo c x y = true →
      Leads (.loadSend c j) s fun t => t.mem = s.mem ∧ ∃ e : LEntry, t.line (y.pa / 64) = s.line (y.pa / 64) ++ [e]
        ∧ e.agent = .port c x.seq ∧ e.pa = y.pa ∧ e.write = false ∧ e.len = x.len)
    ∧ (∀ (v : Word) (o : Option Origin), x.op.isMld = true → s.answer c x y = .forward v o → s.mayForward c x y = true →
      exec (.loadSend c j) s = .next (s.modItem c x.seq fun i => { i with st := .performed, tr := some y, result := some (v, o) })))
  ∧ (∀ (s : State) (c j : Nat) (x y : PItem), let port := (s.core c).port
    (port.drop j).head? = some x → nextEntry (port.drop j).tail = some y → s.mayMerge c x y = true →
    Leads (.storeLeave c (port.length + j)) s fun t => t.mem = s.mem ∧ t.lines = s.lines
      ∧ (t.core c).port = (port.filter fun i => i.seq != x.seq).map fun i =>
          if i.seq = y.seq then { i with under := x.parts ++ i.under, rel := i.rel || x.rel } else i)
  ∧ (∀ (s u : State) (k e j : Nat) (x : Kern) (r : Run) (c : ECand) (y : Trans), s.kern? k = some x → e < 7 → s.mayAccess x e = true →
    u = (if e < 4 then s.copyGo k e else if e = 6 then s.linkGo x else s) →
    (((u.kern k).port e).cands.drop j).head? = some (r, c) → u.heldBy (.engine (u.kern k).kid e) = false → u.portPast (u.kern k) r.op = true →
    u.cached ((u.kern k).core / 8) (c.ctx (u.kern k) r.op) c.va c.isWrite = some y →
    (∀ w, c = .write w → w.mark = none) → u.kindAllows (u.kern k).kid e r c y = true →
    Leads (.engineAccess k e j) s fun t => t.mem = u.mem ∧ ∃ z : LEntry, t.line (y.pa / 64) = u.line (y.pa / 64) ++ [z]
      ∧ z.agent = .engine (u.kern k).kid e r.op.id.toNat ∧ z.pa = y.pa ∧ z.write = c.isWrite)
  ∧ (∀ (s : State) (src j : Nat) (e : LEntry), ((Tab.get [] s.ingress src).drop j).head? = some e →
    (e.tr.kind ≠ .uo → j = 0 ∧ s.sourceQueued src = false) → s.fabricWaits ((Tab.get [] s.ingress src).take j) e = false →
    ((s.pan (groupOf e.pa)).alloc = true →
      Leads (.ingressMove src j) s fun t => t.mem = s.mem ∧ t.line (e.pa / 64) = s.line (e.pa / 64) ++ [e])
    ∧ (∀ req : Nat, (s.pan (groupOf e.pa)).alloc = false → e.agent = .source src req →
      Leads (.ingressMove src j) s fun t => t.mem = s.mem ∧ t.lines = s.lines
        ∧ ∀ r : HReq, Tab.get? s.reqs req = some r → Tab.get? t.reqs req = some { r with left := r.left - 1, fault := true }))

/-- LINE_PERFORM performs the head of a line queue: loads read, stores write, AMO and RED combine. Rests on 01 R15, 05 R134, 05 R135, 05 R136, 09 R230, 09 R231, 09 R235, 09 R236, 13 R332, 13 R344, 13 R346. The answer at an address that does not exist is log entry 15: the model's; that a walk waits for the pan groups of its tables is DEDUCED: log entry 123. -/
def Obligations.LinesPerformTheirHead : Prop :=
  (∀ (s : State) (ln : Nat) (x : LEntry) (rest : List LEntry), s.line ln = x :: rest → Config.groups ≤ groupOf x.pa →
    exec (.linePerform ln) s = .fault (.noSuchAddress x.pa))
  ∧ (∀ (s : State) (ln c : Nat) (x : LEntry) (rest : List LEntry) (i : PItem), s.readyToPerform ln c x rest i →
    (i.op = .load → (x.tr.kind = .uo ∨ ∀ q ∈ s.older c i x.tr, q.1.held = false) → Leads (.linePerform ln) s fun t => t.mem = s.mem ∧ t.lines = Tab.put [] s.lines ln rest
      ∧ ∃ y ∈ (t.core c).port, y.seq = i.seq ∧ y.st = .performed ∧ y.result = some (BitVec.ofNat 64 (leNat (s.mem.read x.pa i.len)), none))
    ∧ (i.op = .store → (∀ p ∈ i.parts, (p.f = true ∨ p.poison = none) ∧ (x.pa + p.va - i.va) / 64 = ln ∧ (x.pa + p.va - i.va) % p.len = 0
          ∧ ∀ n ∈ sectorsOf (x.pa + p.va - i.va) p.len, s.ue.contains n = false ∧ s.physMark n = none) →
      Leads (.linePerform ln) s fun t => t.lines = Tab.put [] s.lines ln rest ∧ t.mem = i.stored x.pa s.mem
        ∧ (∀ a, (∀ p ∈ i.parts, a < x.pa + p.va - i.va ∨ x.pa + p.va - i.va + p.len ≤ a) → t.mem.byte a = s.mem.byte a)))
  ∧ (∀ (s : State) (ln c : Nat) (x : LEntry) (rest : List LEntry) (i : PItem) (op : Nat), s.readyToPerform ln c x rest i →
    i.op = .amo op ∨ i.op = .red op → s.Inv →
    let w := 8 * i.len
    let m : BitVec w := BitVec.ofNat w (leNat (s.mem.read x.pa i.len))
    let new := atomicResult op m (i.data.setWidth w) (i.cmp.setWidth w)
    (op ≠ 1 → i.poison = none → (op = 10 → i.cmpPoison = none) → Leads (.linePerform ln) s fun t =>
      t.lines = Tab.put [] s.lines ln rest
      ∧ (∀ a, x.pa ≤ a → a < x.pa + i.len → t.mem.byte a = (leBytes i.len new.toNat).getD (a - x.pa) 0)
      ∧ (∀ a, (a < x.pa ∨ x.pa + i.len ≤ a) → t.mem.byte a = s.mem.byte a)
      ∧ Answered s t c i op (m.setWidth 64, none))
    ∧ (op ≠ 1 → (op = 10 → i.cmpPoison = none) → ∀ o : Origin, i.poison = some o → Leads (.linePerform ln) s fun t =>
      t.physMark (x.pa / 32) = some o
      ∧ (∀ a, a / 32 ≠ x.pa / 32 → t.mem.byte a = s.mem.byte a)
      ∧ Answered s t c i op (m.setWidth 64, none))
    ∧ (op = 10 → ∀ o : Origin, i.cmpPoison = some o → Leads (.linePerform ln) s fun t => t.mem = s.mem
      ∧ Answered s t c i op (o.setWidth 64, some o))
    ∧ (op = 1 → poisonOrigin 2 m.toNat false = none → i.len = 4 → Leads (.linePerform ln) s fun t =>
      t.mem = s.mem.writeAll x.pa (leBytes 4 (s.amoAdd i m.toNat).1)
      ∧ Answered (s.amoAdd i m.toNat).2 t c i op (m.setWidth 64, none)))
  ∧ (∀ (s : State) (k j n : Nat) (y : Kern) (x : PItem) (v : Word) (o : Option Origin),
    s.kern? k = some y → (((s.core y.core).toLand k).drop j).head? = some x → x.dst = some n → x.result = some (v, o) →
    Leads (.mldDataLand k j) s fun t => t.mem = s.mem ∧ t.has k fun z =>
      z.regs = Tab.put Reg.zero y.regs n ⟨v, o.isSome, o.isSome && x.w8, v, false⟩)
  ∧ (∀ (s : State) (d : Nat), d < 4 → (s.walks.filter fun r => r.core / 64 == d).length ≤ 64)
  ∧ (∀ (s : State) (j : Nat) (r : WalkReq), (s.walks.drop j).head? = some r →
    let v := (s.reachTables r.ctx r.va).1
    let go := (s.reachTables r.ctx r.va).2 = true
    let u : State := { v with emiss := s.emiss.filter fun m => !r.isMiss m }
    (¬ go → exec (.pageWalk j) s = .next v)
    ∧ (∀ y, go → s.walk r.ctx r.va r.write = .ok y → Leads (.pageWalk j) s fun t => t.mem = s.mem ∧ t.lines = s.lines ∧ t.emiss = u.emiss
      ∧ (∃ z ∈ t.tlb, z = { y with cluster := r.core / 8, ctx := r.ctx })
      ∧ (∀ q, r.seq = some q → t.cores = (s.modItem r.core q fun i => { i with tr := some (y.trans r.va) }).cores)
      ∧ (r.seq = none → t.cores = s.cores))
    ∧ (∀ e, go → s.walk r.ctx r.va r.write = .error e →
      (∀ n, r.engine = some n → exec (.pageWalk j) s = .next (u.replayable (.engine r.kid n) r.ctx r.va e))
      ∧ (r.engine = none → exec (.pageWalk j) s = .next (u.replayable (.port r.core) r.ctx r.va e (r.seq.getD (s.core r.core).pseq)))))

/-! ## Events of the pans and the hub, of segments, engines and links -/

namespace Sys2Proof.Machine

/-- The copy transfer that a channel completes reports this much (09 R250-R252). -/
def Kern.covers (k : Kern) (e : Nat) (id : BitVec 32) : Prop := (k.port e).q.all (fun o => o.id != id) = true ∧ (k.port e).xdone = id

/-- A write covers byte a of buffer b. -/
def BWrite.covers (w : BWrite) (b : BufId) (a : Nat) : Bool := w.buf == b && decide (w.addr ≤ a) && decide (a < w.addr + w.bytes.length)

/-- Engine e of a kernel runs the operation of run r, which was none of its running ones. -/
def Kern.began (y : Kern) (e : Nat) (x : Kern) (r : Run) : Prop :=
  (y.port e).runs = (x.port e).runs ++ [r] ∧ ∀ i ∈ (y.port e).q, i.id = r.op.id → i.started = true

/-- A buffer holds what it held, but for the bytes of writes: of those that cover a byte the last gives it. -/
def Buf.holds (y x : Buf) (l : List BWrite) : Prop :=
  ∀ a, y.mem.byte a = match (l.filter fun w => decide (w.addr ≤ a) && decide (a < w.addr + w.bytes.length)).getLast? with
    | some w => w.bytes.getD (a - w.addr) 0
    | none => x.mem.byte a

/-- The logged bytes, marks and uncorrectable words of a segment are back in a kernel's buffers: the last entry of the log that covers a
byte decides, and what no entry covers is as it was. -/
def Kern.rolledBack (x : Kern) (g : Seg) (y : Kern) : Prop :=
  ∀ b ∈ [BufId.ab, .ws, .xs],
    (∀ a, (g.undo.any fun w => w.covers b a) = false → (y.buf b).mem.byte a = (x.buf b).mem.byte a)
    ∧ (∀ a w, (x.buf b).mem.wf = true → (g.undo.filter fun w => w.covers b a).getLast? = some w →
        (y.buf b).mem.byte a = w.bytes.getD (a - w.addr) 0)
    ∧ (∀ sec, (g.undoMarks.any fun e => e.1 == b && e.2.1 == sec) = false → Tab.get? (y.buf b).marks sec = Tab.get? (x.buf b).marks sec)
    ∧ (∀ sec o, (g.undoMarks.filter fun e => e.1 == b && e.2.1 == sec).getLast? = some (b, sec, some o) →
        Tab.get? (y.buf b).marks sec = some o)
    ∧ (∀ w, w ∈ (y.buf b).ue ↔ (b, w) ∈ g.undoUe
        ∨ (w ∈ (x.buf b).ue ∧ (g.undo.any fun u => u.buf == b && rangeTouches (u.addr, u.bytes.length) w) = false))

/-- The store buffer's held stores of a kernel may leave. -/
def State.letGo (s : State) (k : Nat) (x : Kern) : State :=
  s.modCore x.core fun c => { c with port := c.port.map fun i => if i.kid = k then { i with held := false } else i }

end Sys2Proof.Machine

/-- Pans change state, are zeroed and swept; the hub applies phases and fills the origin log. Rests on 09 R234, 09 R235, 09 R236, 09 R238, 09 R241, 14 R364, 14 R366, 14 R367, 14 R371. When a phase is seen by the cores is log entry 58: the model's. That a die keeps its reservation by context (59) and the exact times of the pans (93) are DEDUCED. -/
def Obligations.PansAndTheHubsOwnWork : Prop :=
  (∀ (s : State) (g : Nat), (s.pan g).st = .active → (s.pan g).init = false → s.groupQuiet g = true → (s.pan g).touched + 60 ≤ s.hub.time →
    exec (.panIdle g) s = .next (s.modPan g fun p => { p with st := .idle }))
  ∧ (∀ (s : State) (g : Nat), (s.pan g).alloc = true → (s.pan g).init = false →
    ((s.pan g).st = .active ∨ (s.pan g).st = .idle ∨ ((s.pan g).st = .waking ∧ (s.pan g).cold = true)) →
    (s.pan g).hotcnt = 0 → s.groupQuiet g = true →
    ((s.pan g).cold = true ∨ (s.pan g).touched + s.hub.coldIdle * Config.cyclesPerUs ≤ s.hub.time) →
    exec (.panRetain g) s = .next (s.modPan g fun p => { p with st := .retain, cold := false }))
  ∧ (∀ (s : State) (g : Nat), (s.pan g).st = .waking → (s.pan g).ready ≤ s.hub.time →
    exec (.panWakeDone g) s = .next (s.modPan g fun p => { p with st := .active }))
  ∧ (∀ (s : State) (g : Nat), (s.pan g).init = true → (s.pan g).st = .active →
    Leads (.panInitDone g) s fun t =>
      (∀ a, t.mem.byte a = if groupOf a = g then 0 else s.mem.byte a)
      ∧ t.pans = Tab.put Pan.reset s.pans g { s.pan g with init := false, hotcnt := s.declared g, cold := false, touched := s.hub.time })
  ∧ (∀ (s : State) (g : Nat), (s.pan g).scrubOwed = true → (s.pan g).st = .active →
    Leads (.scrubSweep g) s fun t => t.mem = s.mem ∧ t.marks = s.marks ∧ (∀ x ∈ t.ce, groupOf (32 * x) ≠ g)
      ∧ t.pans = Tab.put Pan.reset s.pans g { s.pan g with scrubOwed := false })
  ∧ (∀ s : State, s.hub.nextScrub ≤ s.hub.time →
    Leads .patrolScrub s fun t => t.mem = s.mem ∧ t.marks = s.marks
      ∧ t.hub.nextScrub = s.hub.time + s.hub.scrubInterval * 3600 * 1000000 * Config.cyclesPerUs)
  ∧ (∀ (s : State) (c : Nat) (k : Kern), c < 256 → (s.context k.ctx).next < 0x7FFF →
    s.kerns.find? (fun x => x.core == c && decide (((s.core c).resvOf x.ctx).length ≤ 8)) = some k →
    let n := (s.context k.ctx).next
    let b : List Origin := (List.range (min 16 (0x7FFF - n))).map fun i => BitVec.ofNat 15 (n + i)
    let t := { s.modCtx k.ctx fun x => { x with next := n + b.length } with
      cores := Tab.put Core.idle s.cores c ((s.core c).setResv k.ctx ((s.core c).resvOf k.ctx ++ b)) }
    b ≠ [] ∧ (t.core c).resvOf k.ctx = (s.core c).resvOf k.ctx ++ b ∧ (t.context k.ctx).next = n + b.length
      ∧ exec (.originReservationRefill c) s = .next (t.flushHeader k.ctx))
  ∧ (∀ (s : State) (die ctx : Nat), die < 4 → ctx < 64 → (s.context ctx).en = true → (s.context ctx).next < 0x7FFF →
    let key := 64 * die + ctx
    let n := (s.context ctx).next
    let b : List Origin := (List.range (min 16 (0x7FFF - n))).map fun i => BitVec.ofNat 15 (n + i)
    (Tab.get [] s.hub.dieResv key).length ≤ 8 →
    exec (.originReservationRefill (256 + key)) s = .next ({ s.modCtx ctx fun x => { x with next := n + b.length } with
      hub := { s.hub with dieResv := Tab.put [] s.hub.dieResv key (Tab.get [] s.hub.dieResv key ++ b) } }.flushHeader ctx))
  ∧ (∀ (s : State) (c : Nat) (v : BitVec 42) (rest : List (Nat × BitVec 42)), s.hub.bwq = (c, v) :: rest →
    Leads .hubBwphaseApply s fun t => t.hub.bwq = rest ∧ t.mem = s.mem ∧ t.out = s.out ++ [.event 0x05 c (v.toNat / 2 ^ 32) 0 []]
      ∧ t.kerns = s.kerns.map fun (k : Kern) =>
        if k.ctx = c ∧ (rest.any fun e => e.1 == c) = false ∧ k.holdsPhase = false then { k with spr := { k.spr with bwphase := v } } else k)
  ∧ (∀ (s u : State) (f : OFill) (rest : List OFill), s.fills = f :: rest →
    s.hubWrite f.ctx ((s.context f.ctx).logaddr.toNat + 64 * f.idx.toNat) f.bytes = .ok (u, true) →
    exec .originEntryFill s = .next (({ u with fills := rest }.modCtx f.ctx fun c => { c with lastTime := s.hub.time }).flushHeader f.ctx))

/-- SEGMENT_COMMIT releases what was held; SEGMENT_REWIND restores; RERUN_COMPARE judges. Rests on 14 R376, 14 R378, 14 R379, 14 R383, 14 R384. -/
def Obligations.SegmentsCommitAndRewind : Prop :=
  (∀ (s : State) (k : Nat) (x : Kern) (g : Seg), s.kern? k = some x → x.seg = some g → s.closing x = true → x.landed = true →
    x.mismatch = false → x.inRerun = false →
    ((∀ h ∈ g.held, ∀ q bytes n, h ≠ .qpost q bytes n) → Leads (.segmentCommit k) s fun t => t.mem = s.mem
      ∧ t.cores = (s.letGo k x).cores
      ∧ t.ctxs = Tab.put Ctx.reset s.ctxs x.ctx { s.context x.ctx with san := min ((s.context x.ctx).san + g.sanitise) (2 ^ 32 - 1) }
      ∧ t.hub = { s.hub with bwq := s.hub.bwq ++ g.held.filterMap fun h => match h with | .bwph v => some (x.ctx, v) | _ => none }
      ∧ t.has k fun y => y.seg = none ∧ (y.regs, y.preds, y.masks, y.vregs, y.lat, y.spr, y.ctl) = (x.regs, x.preds, x.masks, x.vregs, x.lat, x.spr, x.ctl)
        ∧ (g.held = [] → y = { x with seg := none })
        ∧ ∀ (e : Nat) (id : BitVec 32), .ego e id ∈ g.held → ∀ o ∈ (y.port e).q, o.id = id → o.held = false)
    ∧ (∀ (q n : Nat) (bytes : List Byte), g.held = [.qpost q bytes n] → exec (.segmentCommit k) s = .next
        ((((s.letGo k x).postPacket k q bytes n).modCtx x.ctx fun c => { c with san := min (c.san + g.sanitise) (2 ^ 32 - 1) }).modKern k
          fun y => { y with seg := none })))
  ∧ (∀ (s : State) (k : Nat) (x : Kern) (g : Seg), s.kern? k = some x → x.seg = some g → s.rewindSet x = [x] →
    let back : State → Nat → Prop := fun t n =>
      t.mem = s.mem
      ∧ t.cores = Tab.put Core.idle s.cores x.core { s.core x.core with port := dropFences false ((s.core x.core).port.filter fun i =>
          !(i.kid == k && (i.held || (i.op.isLoad && decide (g.pseq ≤ i.seq))))) }
      ∧ t.has k fun y =>
      (y.regs, y.preds, y.masks, y.vregs, y.lat, y.spr) = (g.ck.regs, g.ck.preds, g.ck.masks, g.ck.vregs, g.ck.lat, g.ck.spr)
      ∧ y.ctl.pc = g.ck.ctl.pc ∧ y.ctl.handler = g.ck.ctl.handler ∧ x.rolledBack g y
      ∧ (∃ h, y.seg = some h ∧ h.rerun = n ∧ h.error = false ∧ h.ck = g.ck ∧ h.held = [] ∧ h.sanitise = 0 ∧ h.count = 0 ∧ h.sig = 0
          ∧ (n = 2 → h.count1 = g.count ∧ h.sig1 = g.sig))
    (x.inRerun = false → g.error = true → x.flights = [] → x.dw = [] → Leads (.segmentRewind k) s fun t => back t 1)
    ∧ (g.rerun = 1 → g.error = false → s.atClose x = true → x.landed = true → x.mismatch = false →
      Leads (.segmentRewind k) s fun t => back t 2))
  ∧ (∀ (s : State) (k : Nat) (x : Kern) (g : Seg), s.kern? k = some x → x.seg = some g → g.rerun = 2 → x.ctl.dead = false →
    s.segError x = false → s.atClose x = true → x.landed = true →
    (g.count = g.count1 → g.sig = g.sig1 →
      Leads (.rerunCompare k) s fun t => t.has k fun y => y = { x with seg := some { g with rerun := 3 } })
    ∧ (g.count ≠ g.count1 ∨ g.sig ≠ g.sig1 → exec (.rerunCompare k) s = .next (s.retire x g.sig1 g.sig)
      ∧ Leads (.rerunCompare k) s fun t => t.out = s.out ++ [.event 0x06 x.ctx x.core 0 []] ∧ (t.core x.core).retired = true
        ∧ t.hub.outOfService = s.hub.outOfService ++ [x.core]))
  ∧ (∀ (s : State) (k : Nat) (x : Kern) (g : Seg), s.kern? k = some x → x.seg = some g → g.rerun = 1 ∨ g.rerun = 2 → x.ctl.dead = false →
    s.segError x = true →
    exec (.rerunCompare k) s = .next (if g.rerun = 1 then s.retire x g.sig 0 else s.retire x g.sig1 g.sig))

/-- Copy, key and circuit operations start, write and complete. Rests on 03 R58, 08 R213, 09 R242, 09 R249, 09 R251, 09 R253, 11 R298, 11 R299, 11 R300, 12 R314, 12 R326. That a PLAIN transfer wants all its chunks, or has read its buffer source, at its start (log entry 41), the positions and counts of a KEY_STEP (45), the cycles of EVAL from TIME (48) and the marked AB source sectors of PUPD (49) are DEDUCED. -/
def Obligations.EnginesStartStepAndComplete : Prop :=
  (∀ (s : State) (k e : Nat) (x : Kern) (o : Eop), s.kern? k = some x → e < 4 → s.enginesRun x = true → x.nextOp e = some o →
    (o.copy.expand = true ∨ o.srcDevice = true → Leads (.copyTransferStart k e) s fun t => t.mem = s.mem ∧ t.has k fun y =>
      y.began e x (if o.copy.expand then .start o else { Run.start o with
        mem := { (Run.start o).mem with want := (List.range o.copy.chunks).flatMap fun i => wantsOf (o.copy.len * i) (o.srcAt i) o.copy.len }
        cur := { Cursor.start with words := List.range o.copy.chunks } }))
    ∧ (o.copy.expand = false → o.srcDevice = false → x.clean → Leads (.copyTransferStart k e) s fun t => t.mem = s.mem ∧ t.has k fun y =>
      ∃ r : Run, y.began e x r ∧ r.op = o ∧ r.cur = { Cursor.start with words := List.range o.copy.chunks } ∧ r.mem.want = []
        ∧ ∀ i < o.copy.chunks, r.mem.bytes? (o.copy.len * i) o.copy.len = some ((x.buf o.src.fields.buf).cbytes (o.srcAt i) o.copy.len)))
  ∧ (∀ (s : State) (k e n : Nat) (x : Kern) (r : Run) (b : BitVec 512), s.kern? k = some x → s.copyRun k e = some r → e < 4 → s.enginesRun x = true →
    r.op.copy.expand = true → r.cur.fin = none → r.cur.m < r.op.copy.bundles → r.op.srcDevice = true → r.cur.acc ≤ s.hub.time → r.nextBundle = .bundle b n →
    Leads (.expandBundleWrite k e) s fun t => t.mem = s.mem
      ∧ (b ≠ 0 → Tab.get 0 (t.core x.core).is (r.op.copy.daddr + r.cur.m) = b)
      ∧ (b ≠ 0 → ∀ a, a ≠ r.op.copy.daddr + r.cur.m → Tab.get 0 (t.core x.core).is a = Tab.get 0 (s.core x.core).is a)
      ∧ (b ≠ 0 → ∀ y : Kern, y.core = x.core → y.ctl.pc.toNat = r.op.copy.daddr + r.cur.m →
        t.nextBundle y = b ∨ t.nextBundle y = Tab.get 0 (s.core x.core).is (r.op.copy.daddr + r.cur.m)))
  ∧ (∀ (s u : State) (k e : Nat) (x z : Kern) (r : Run), e < 4 → s.kern? k = some x → s.enginesRun x = true → u = s.moveChunks k e →
    u.kern? k = some z → u.enginesRun z = true → u.copyRun k e = some r → u.copyOver k e r = true →
    (∃ o : Eop, (z.port e).q = [o] ∧ o.id = r.op.id) →
    Leads (.copyComplete k e) s fun t => t.mem = u.mem ∧ t.has k fun y => y.covers e r.op.id
      ∧ (y.port e).recs = r.copyRecords (z.port e).recs
      ∧ (r.op.copy.expand = true → r.cur.m ≠ 0 →
        (isHalf r.op.copy.daddr = 0 → y.ctl.stale0 = true)
        ∧ (isHalf r.op.copy.daddr ≤ 1 → 1 ≤ isHalf (r.op.copy.daddr + r.cur.m - 1) → y.ctl.stale1 = true)))
  ∧ (∀ (s : State) (cl : Nat) (x : Kern), s.keyNext cl = some x → x.nextOp 4 = none →
    exec (.keyStep cl) s = .next ((State.keyStages 4 x.kid { s with keyPos := Tab.set s.keyPos cl x.keyPlace }).keyAdvance x.kid))
  ∧ (∀ (s : State) (k : Nat) (x : Kern) (r : Run), s.kern? k = some x → s.keyRun k = some r → s.enginesRun x = true → r.cur.phase = 3 →
    r.isRefused = false → r.cur.i ≤ r.cur.j → r.outs = [] → r.mem.wq = [] → s.outstanding k 4 r.op.id.toNat = false → r.cur.acc ≤ s.hub.time →
    (∃ o : Eop, x.key.q = [o] ∧ o.id = r.op.id) →
    Leads (.keyOpComplete k) s fun t => t.mem = s.mem ∧ t.has k fun y => y.covers 4 r.op.id)
  ∧ (∀ (s : State) (k : Nat) (x : Kern) (o : Eop), s.kern? k = some x → s.enginesRun x = true → x.circNext = some o → o.code = 0x23 →
    (∃ p : Eop, x.circP.q = [p] ∧ p.id = o.id) →
    Leads (.circOpStart k) s fun t => t.mem = s.mem ∧ t.has k fun y => y.circ.act = !x.circ.act ∧ y.covers 5 o.id)
  ∧ (∀ (s : State) (k : Nat) (x : Kern) (o : Eop), s.kern? k = some x → s.enginesRun x = true → x.circNext = some o →
    (x.circP.runs.all fun r => r.op.id != o.id) = true →
    let ended : Nat → Run := fun st => { Run.start o with cur := { Cursor.start with fin := some (st, 0) } }
    (o.code = 0x20 → Leads (.circOpStart k) s fun t => t.mem = s.mem ∧ t.has k fun y => y.circ.loaded = false
      ∧ y.began 5 x (let obj := o.ten (bitsOf (o.reg 2) 7 0)
        if obj.objHas 0 64 then { Run.start o with mem := { (Run.start o).mem with want := wantsOf obj.fields.base obj.fields.base 64 } } else ended 0x11))
    ∧ (o.code = 0x21 →
      let begun : Circ := { x.circ.newGroup s.hub.time with side := x.circ.act, right := true, fetch := none, evalAt := s.hub.time, groups := 0, vanished := 0, poisoned := 0, firstRow := none, landing := [] }
      (x.circ.loaded = false ∨ x.evalRange o = true → Leads (.circOpStart k) s fun t => t.mem = s.mem ∧ t.has k fun y =>
        y.circ = begun ∧ y.began 5 x (ended (if x.circ.loaded = false then 0x14 else 0x12)))
      ∧ (x.circ.loaded = true → x.evalRange o = false → ∃ u : State, exec (.circOpStart k) s = .next (u.circGo k) ∧ u.mem = s.mem
        ∧ u.has k fun y => y.circ = begun ∧ y.began 5 x (.start o)))
    ∧ (o.code = 0x22 →
      let side := bitsOf (o.reg 3) 8 8 == 1
      let tens := o.ten (bitsOf (o.reg 3) 7 0)
      let n := bitsOf (o.reg 3) 60 48 + 1
      let first := bitsOf (o.reg 3) 44 32
      let busy := side = x.circ.act ∨ (side = x.circ.side ∧ ∃ r ∈ x.circP.runs, r.op.code = 0x21)
      let fits := (tens.format.kind == 1) = x.chead.pfmt ∧ first + n ≤ x.chead.npar
      let fails : Nat → Prop := fun st => Leads (.circOpStart k) s fun t => t.mem = s.mem ∧ t.has k fun y => y.ns = x.ns ∧ y.began 5 x (ended st)
      (x.circ.loaded = false → fails 0x14)
      ∧ (x.circ.loaded = true → busy → fails 0x13)
      ∧ (x.circ.loaded = true → ¬ busy → ¬ fits → fails 0x12)
      ∧ (x.circ.loaded = true → ¬ busy → fits → x.clean → x.ns.marks = [] → x.ns.mem.wf = true → Leads (.circOpStart k) s fun t => t.mem = s.mem ∧ t.has k fun y =>
        y.began 5 x (ended 0) ∧ y.ns.holds x.ns [⟨.ns, (if side then 0x30000 else 0x20000) + first * x.chead.psz,
          sideBytes x.chead n ((List.range n).flatMap fun i => x.ab.cbytes (tens.elemAddr i) x.chead.psz), none⟩]))
    ∧ (o.code = 0x24 → x.clean → x.ab.marks = [] → x.ab.mem.wf = true → Leads (.circOpStart k) s fun t => t.mem = s.mem ∧ t.has k fun y =>
      y.began 5 x (ended 0) ∧ y.ab.holds x.ab (wordWrites (o.ten (bitsOf (o.reg 4) 7 0)) 0 ((List.range 8).flatMap fun n => leBytes 8 (x.circ.stat.getD n 0).toNat))))
  ∧ (∀ (s : State) (k : Nat) (x : Kern), s.kern? k = some x → s.circRuns x = true → exec (.sectionFetchDone k) s = .next (s.circGo k))
  ∧ (∀ (s : State) (k : Nat) (x : Kern) (r : Run), s.kern? k = some x → s.circRuns x = true → ((s.circGo k).kern k).mainRun = some r →
    r.cur.fin = none → r.op.code = 0x21 → r.cur.acc ≤ (s.circGo k).hub.time → r.cur.phase = 2 →
    exec (.circuitStep k) s = .next ((s.circGo k).evalStep k r))
  ∧ (∀ (s : State) (k : Nat) (x : Kern) (r : Run), s.kern? k = some x → x.mainRun = some r → s.circRuns x = true → x.ctl.dead = false →
    r.cur.fin = none → r.op.code = 0x21 → r.cur.phase = 5 → r.op.hasRec = false → r.cur.i + 1 < r.op.groups x.chead →
    Leads (.circuitGroupDone k) s fun t => t.mem = s.mem ∧ t.has k fun y =>
      y.circ.groups = x.circ.groups + 1 ∧ y.circ.vmask = 0 ∧ y.circ.first = [] ∧ y.circ.pmask = 0)
  ∧ (∀ (s : State) (k : Nat) (x : Kern) (r : Run) (sr loc : Nat), s.kern? k = some x → s.circRuns x = true → x.circP.runs = [r] →
    r.cur.fin = some (sr, loc) → r.mem.want = [] → r.mem.wq = [] → s.outstanding k 5 r.op.id.toNat = false →
    (∃ o : Eop, x.circP.q = [o] ∧ o.id = r.op.id) →
    Leads (.circOpComplete k) s fun t => t.mem = s.mem ∧ t.has k fun y => y.covers 5 r.op.id)

/-- Messages arrive and are taken, operations complete or time out, ports pause and go down. Rests on 16 R409, 16 R415. That a landing buffer is charged whole messages and FLIT_REPLAY only counts (log entry 51) are DESIGN CHOICES of the model, that only receives of existing kernels match (85) is DEDUCED. -/
def Obligations.LinksCarryMessages : Prop :=
  (∀ (s : State) (die port : Nat) (m : LMsg) (rest : List LMsg), die < 4 → port < 5 →
    let key := portKey die port
    (s.lport key).down = false → (match peerPort die port with | some peer => (s.lport peer).paused || (s.lport peer).down | none => (s.lport key).held) = false →
    (s.lport key).wire = m :: rest →
    let u := s.modLport key fun p => { p with wire := rest, replays := 0 }
    (m.put = true → exec (.linkMessageArrival die port) s = .next (u.putArrives m)
      ∧ ∀ k o, u.senderOf m = some (k, o) → u.putArrives m = (u.putWrites k o (m.cbytes m.bytes.length)).linkEnd k o.id.toNat 0)
    ∧ (m.put = false →
    let u := match m.from_ with | some (k, id) => u.linkEnd k id.toNat 0 | none => u
    (∀ v, s.recvs.find? (fun v => v.takes key m && (s.kern? v.k).isSome) = some v → exec (.linkMessageArrival die port) s = .next (u.linkDeliver v m))
    ∧ (s.recvs.find? (fun v => v.takes key m && (s.kern? v.k).isSome) = none →
      (m.flits ≤ (s.lport key).free →
        exec (.linkMessageArrival die port) s = .next ((u.modLport key fun p => { p with landing := p.landing ++ [m] }).flowControl key))
      ∧ ((s.lport key).free < m.flits → exec (.linkMessageArrival die port) s = .next s))))
  ∧ (∀ (s : State) (k st : Nat) (x : Kern) (r : Run) (g : Origin), s.kern? k = some x → s.enginesRun x = true → x.link.runs = [r] →
    s.linkStatus k r = some (st, g) → (∃ o : Eop, x.link.q = [o] ∧ o.id = r.op.id) →
    Leads (.linkOpComplete k) s fun t => t.mem = s.mem ∧ t.has k fun y => y.covers 6 r.op.id)
  ∧ (∀ (s : State) (k : Nat) (v : Recv), s.recvs = [v] → v.k = k → s.hub.linkTo * Config.cyclesPerUs ≤ v.waited →
    exec (.linkTimeout k) s = .next ({ s with recvs := [] }.linkEnd k v.id.toNat 0x31))
  ∧ (∀ (s : State) (die port : Nat), die < 4 → port < 5 →
    let key := portKey die port
    let held := match peerPort die port with | some peer => (s.lport peer).held | none => true
    (held = true → exec (.pause die port) s = .next (s.modLport key fun p => { p with paused := true }))
    ∧ ((held = false ∨ peerPort die port = none) → exec (.resume die port) s = .next (s.modLport key fun p => { p with paused := false }))
    ∧ ((s.lport key).wire ≠ [] → (s.lport key).down = false →
      exec (.flitReplay die port) s = .next (s.modLport key fun p => { p with replays := p.replays + 1 }))
    ∧ ((s.lport key).down = false → Leads (.portDown die port) s fun t => (t.lport key).down = true ∧ t.mem = s.mem
      ∧ t.ufaults.length = s.ufaults.length + (s.usersOf die port).length))

/-! ## Events of the sites, the queues, the fabric and management -/

namespace Sys2Proof.Machine

/-- Queue q may take the packet p of type t now, its header without fault; x is the queue without it. -/
def Takes (s : State) (q t : Nat) (p : Packet) (x : Queue) : Prop :=
  s.nextPacket q = some (p, x) ∧ p.full = false ∧ ptype p.bytes = t ∧ headerFault p.bytes = none

/-- The packet completes as it is taken. -/
def State.completes (s : State) (q : Nat) (p : Packet) (x : Queue) (status detail : Nat) : State :=
  s.take q p x (.done status detail 0) none

/-- A running package handles message m with event i; u is the state with what is no request before it discarded (16 R408). -/
def Handles (i : Instr) (s u : State) (m : Msg) : Prop :=
  s.hub.up = true ∧ s.hub.linksUp = true ∧ s.hub.verified = true ∧ u = s.dropForeign ∧ u.message i = some m

/-- The context, and the queue, of a CFG address (16 R412). -/
def Msg.cfgCtx (m : Msg) : Nat := (m.cfgAddr - 0x1_0000) / 64
def Msg.cfgQueue (m : Msg) : Nat := (m.cfgAddr - 0x2_0000) / 64

end Sys2Proof.Machine

/-- A site chooses by rank, yield, age and queue; a switch takes 160 cycles (log entry 28); overruns are reported. Rests on 06 R155, 06 R168, 06 R169, 15 R397, 15 R398, 15 R399, 16 R416. The 160 cycles of a switch are log entry 28, the 1,200 of a full pre-emption and its requests log entry 68: DESIGN CHOICES of the model. -/
def Obligations.SitesDecideAndSwitch : Prop :=
  (∀ (l : List Cand) (c : Cand), bestOf l = some c → c ∈ l ∧ ∀ d ∈ l, d.before c = false)
  ∧ (∀ (s : State) (i e d : Nat) (t : Site), s.site? i = some t → t.switch = 0 → t.chosen = some e → (s.dom? e).isSome = true → s.onRetired e = false →
    t.running = some d → s.drained d = true →
    exec (.yieldDecision i) s = .next (((s.switchOut d).modSite i fun t => { t with running := some e, chosen := none, switch := 160 }).modDom e
      fun y => { y with ran := 0 }))
  ∧ (∀ (s : State) (d : Nat) (x : Dom), s.dom? d = some x → s.domRuns d = true → x.overran = false → 2 * x.declared + 4096 < x.ran →
    Leads (.overrun d) s fun t => t.dom? d = some { x with overran := true, preempt := true }
      ∧ ∃ c, t.out = s.out ++ [.event 0x03 c x.q 0 []])
  ∧ (∀ (s : State) (v : Nat) (rest : List Nat) (x : Launch), s.hub.victims = v :: rest → s.launch? v = some x → (x.st = .running ∨ x.st = .placed) →
    Leads .fullPreemption s fun t => t.launch? v = some { x with st := .stopping } ∧ t.hub.victims = rest
      ∧ t.hub.preempts = s.hub.preempts ++ (s.doms.filter fun d => d.2.launch == v).map fun d => (s.hub.time + 1200, d.1))
  ∧ (∀ (s : State) (c d : Nat) (x : Dom), s.hub.preempts.find? (fun e => decide (e.1 ≤ s.hub.time)) = some (c, d) → s.dom? d = some x →
    Leads .preemptionRequest s fun t => t.dom? d = some { x with preempt := true, full := true })
  ∧ (∀ (s : State) (e : Nat × List Nat), s.hub.hardStops.find? (fun e => decide (e.1 ≤ s.hub.time) && !s.anyRerun e.2) = some e →
    Leads .hardStop s fun t => t.hub.hardStops = removeFirst e s.hub.hardStops
      ∧ t.doms = s.doms.map fun d => if e.2.contains d.2.launch then (d.1, { d.2 with hard := true, broken := true }) else d)
  ∧ (∀ s : State, s.hub.nextGrant ≤ s.hub.time →
    Leads .arbiterGrant s fun t => t.hub.nextGrant = s.hub.time + 3000 ∧ t.hub.grants.length = 4 ∧ t.hub.grants.foldl (· + ·) 0 ≤ s.budget)

/-- A gang is placed on free cores, starts 256 cycles later, is saved, restored, and ends. Rests on 01 R13, 01 R19, 01 R20, 08 R201, 15 R393, 15 R399. The save area (log entry 9) and the domain sizes on a restore (log entry 64) are DESIGN CHOICES of the model. -/
def Obligations.GangsArePlacedStartAndEnd : Prop :=
  (∀ (s u v : State) (l : Nat) (ch : List Nat) (x : Launch) (ps : List Plan) (args : List CByte) (parts : List (List CByte)),
    s.launch? l = some x → x.st = .waiting → s.behind l x = false → s.heldBy (.placement l) = false → s.plans x ch = some ps →
    let o := Tab.get default s.objs x.obj
    s.hubRange x.ctx x.argaddr x.argsize = .ok (u, some args) →
    u.hubRanges o.ctx (placeReads x o (ps.all (·.fresh))) = .ok (v, some parts) → v.launch? l = some x →
    Leads (.gangPlacement l ch) s fun t => t.mem = v.mem
      ∧ (∃ y, t.launch? l = some y ∧ y.st = .placed ∧ y.cores = ps.flatMap (·.cores))
      ∧ ps.flatMap (·.cores) = (List.range (x.gs * x.gq)).map (fun n => 8 * (ch.take (ceilDiv (x.gs * x.gq) 8)).getD (n / 8) 0 + n % 8)
      ∧ t.kerns.map (fun k => (k.kid, k.core)) = v.kerns.map (fun k => (k.kid, k.core))
          ++ ((List.range (ps.flatMap (·.cores)).length).zip (ps.flatMap (·.cores))).map (fun e => (l * 256 + e.1, e.2))
      ∧ (∀ p ∈ ps, ∃ d, t.dom? (l * 4 + p.die) = some d ∧ d.launch = l ∧ d.started = false ∧ d.dcyc = 0 ∧ d.declared = x.yfirst)
      ∧ ((∀ k ∈ v.kerns, k.kid / 256 ≠ l) → x.gs * x.gq ≤ 256 → ∀ e ∈ (List.range (ps.flatMap (·.cores)).length).zip (ps.flatMap (·.cores)),
          let i := applyInits (records (field (o.kernel x.kidx) 4 2) ((parts.getD 3 []).map (·.b))) [] []
          let k := Kern.fresh l e.1 e.2 x.ctx x.gs x.gq x.res x.isw x.resil x.pstore (o.entry x.kidx)
          t.has (l * 256 + e.1) fun y =>
            { y with ab := .zero } = { k with tdt := i.1, fmts := i.2, spr := { k.spr with bwphase := (v.context x.ctx).bwphase } }
            ∧ (args.all (·.mark.isNone) = true → y.ab.marks = [] ∧ ∀ a, y.ab.mem.byte a = (args.map (·.b)).getD a 0)))
  ∧ (∀ (s : State) (d : Nat) (x : Dom) (l : Launch), s.dom? d = some x → s.launch? x.launch = some l → x.started = false → l.st = .placed →
    x.preempt = false → s.onRetired d = false → l.placedAt + 256 ≤ s.hub.time →
    Leads (.domainStart d) s fun t => t.dom? d = some { x with started := true, dcyc := 0, ran := 0 } ∧ t.kerns = s.kerns)
  ∧ (∀ (s u : State) (l : Nat) (x : Launch) (all : Bool), s.launch? l = some x → x.st = .stopping → s.savable l = true → s.writeSave x = (u, all) →
    (all = false → exec (.contextSave l) s = .next u)
    ∧ (all = true → u.launch? l = some x →
      Leads (.contextSave l) s fun t => t.mem = u.mem ∧ t.kerns = u.kerns.filter (fun k => k.launch != l)
        ∧ ∃ y, t.launch? l = some y ∧ y.st = .saved ∧ y.saved = (u.kerns.filter fun k => k.launch == l).map Kern.resumed ∧ y.cores = []))
  ∧ (∀ (s : State) (l : Nat) (ch : List Nat) (x : Launch) (ps : List Plan), s.launch? l = some x → x.st = .saved → s.behind l x = false →
    s.plans x ch = some ps → domSizes (ps.flatMap (·.cores)) = domSizes (x.saved.map (·.core)) → ps.length = x.savedDoms.length → s.recvs = [] →
    Leads (.contextRestore l ch) s fun t => t.mem = s.mem
      ∧ (∃ y, t.launch? l = some y ∧ y.st = .running ∧ y.saved = [] ∧ y.cores = ps.flatMap (·.cores))
      ∧ t.kerns = s.kerns ++ ((x.saved.zip x.savedIs).zip (ps.flatMap (·.cores))).map fun e => e.1.1.moveTo l e.2 (s.context e.1.1.ctx).bwphase)
  ∧ (∀ (s : State) (l : Nat) (x : Launch), s.launch? l = some x → (x.st = .running ∨ x.st = .stopping) →
    (∀ k ∈ s.kerns, k.launch = l → s.kernEnded k = true) → (∀ f ∈ s.fills, f.ctx ≠ x.ctx) →
    Leads (.launchEnd l) s fun t => t.mem = s.mem ∧ t.kerns = s.kerns.filter (fun k => k.launch != l) ∧ t.launches = s.launches.erase l)

/-- Each packet type is taken in order, checked, takes effect and completes. Rests on 15 R386, 15 R388, 15 R392, 15 R402, 15 R405, 15 R406, 09 R235. -/
def Obligations.QueuesTakePackets : Prop :=
  (∀ e ∈ [(0, Instr.nopq), (1, .launch), (2, .load), (3, .unload), (4, .waitval), (7, .xlateinv)],
    ∀ (s : State) (q st d : Nat) (p : Packet) (x : Queue), s.nextPacket q = some (p, x) → p.full = false → ptype p.bytes = e.1 →
    headerFault p.bytes = some (st, d) → exec (e.2 q) s = .next (s.completes q p x st d))
  ∧ (∀ (s : State) (q : Nat) (p : Packet) (x : Queue), Takes s q 0 p x → exec (.nopq q) s = .next (s.completes q p x 0 0))
  ∧ (∀ (s : State) (q : Nat) (p : Packet) (x : Queue), Takes s q 3 p x →
    let h := field p.bytes 16 2
    (Tab.get? x.handles h = none → exec (.unload q) s = .next (s.completes q p x 0x12 0))
    ∧ (∀ o, Tab.get? x.handles h = some o →
      exec (.unload q) s = .next ((s.completes q p { x with handles := x.handles.erase h } 0 0).unref o)))
  ∧ (∀ (s : State) (q : Nat) (p : Packet) (x : Queue), s.busyPacket q 6 = none → Takes s q 6 p x →
    (∀ e ∈ barrierEntries p.bytes, (s.queue e.2.1).st ≠ .unbound ∧ (s.queue e.2.1).ctx = x.ctx) →
    exec (.barrier q) s = .next (s.take q p x (if s.barrierMet p.bytes then .done 0 0 0 else .busy) none))
  ∧ (∀ (s : State) (q : Nat) (r : PkRun), s.busyPacket q 6 = some r → s.barrierMet r.bytes = true →
    exec (.barrier q) s = .next (s.setPhase q 6 (.done 0 0 0)))
  ∧ (∀ (s : State) (q : Nat) (p : Packet) (x : Queue), Takes s q 7 p x → pbyte p.bytes 16 = 0 → x.spill = [] →
    Leads (.xlateinv q) s fun t => t.mem = s.mem ∧ ∀ e ∈ t.tlb, e.ctx ≠ x.ctx)
  ∧ (∀ (s u : State) (q : Nat) (p : Packet) (x : Queue) (l : List CByte), Takes s q 4 p x → field p.bytes 16 8 % pwidth p.bytes = 0 →
    s.hubRead x.ctx (field p.bytes 16 8) (pwidth p.bytes) = .ok (u, some l) →
    exec (.waitval q) s = .next (u.take q p { x with reread := false }
      (if waitMet p.bytes (leNat (l.map (·.b))) then .done 0 0 0 else .busy) none))
  ∧ (∀ (s u : State) (q : Nat) (r : PkRun) (l : List CByte), s.busyPacket q 4 = some r → (s.queue q).reread = true → s.heldBy (.queue q) = false →
    s.hubRead (s.queue q).ctx (field r.bytes 16 8) (pwidth r.bytes) = .ok (u, some l) →
    let v := u.modQueue q fun y => { y with reread := false }
    exec (.waitvalReread q) s = .next (if waitMet r.bytes (leNat (l.map (·.b))) then v.setPhase q 4 (.done 0 0 0) else v))
  ∧ (∀ (s u : State) (q : Nat) (p : Packet) (x : Queue) (y : Trans), s.busyPacket q 5 = none → Takes s q 5 p x → pbyte p.bytes 40 % 2 = 0 →
    field p.bytes 16 8 % pwidth p.bytes = 0 → s.hubAccess x.ctx (field p.bytes 16 8) true = .ok (u, some y) →
    exec (.signal q) s = .next ((u.performWrite (.hub x.ctx 9) y x.ctx y.pa
      (leBytes (pwidth p.bytes) (field p.bytes 24 8 % 2 ^ (8 * pwidth p.bytes)))).completes q p x 0 0))
  ∧ (∀ (s : State) (q : Nat) (p : Packet) (x : Queue), s.busyPacket q 8 = none → Takes s q 8 p x →
    let m := field p.bytes 20 4
    (pbyte p.bytes 16 = 0 → s.panWrong m true = none → exec (.panctlAlloc q) s = .next ((s.take q p x .busy none).allocGroups x.ctx m))
    ∧ (pbyte p.bytes 16 = 1 → s.panWrong m false = none → exec (.panctlFree q) s = .next (s.take q p x .busy none))
    ∧ (pbyte p.bytes 16 = 2 → phaseBad (field p.bytes 32 8) = false →
      exec (.panctlPhase q) s = .next ((s.completes q p x 0 0).sendPhase x.ctx (field p.bytes 32 8))))
  ∧ (∀ (s : State) (q m : Nat),
    (s.busyPan q 0 = some m → s.allocated m = true → exec (.panctlAlloc q) s = .next (s.setPhase q 8 (.done 0 0 0)))
    ∧ (s.busyPan q 1 = some m → s.allQuiet m = true → exec (.panctlFree q) s = .next ((s.freeGroups m).setPhase q 8 (.done 0 0 0))))
  ∧ (∀ (s u v : State) (q h : Nat) (p : Packet) (x : Queue) (l : List CByte), Takes s q 2 p x →
    let oa := field p.bytes 16 8
    let db := field p.bytes 32 8
    let b := l.map (·.b)
    let ws := if (u.sameObject oa db).isSome then [] else
      (deviceWrites db ((l.drop (headerPart b 64).1).take (headerPart b 64).2) []).1
    oa % 64 = 0 → db % 64 = 0 → s.hubRange x.ctx oa (field p.bytes 24 8) = .ok (u, some l) → objectFault b (field p.bytes 24 8) = none →
    field b 8 8 = Config.devhash.toNat → field b 6 2 ≤ Config.devfeat.toNat % 2 ^ 16 →
    ((List.range 64).map (· + 1)).find? (fun h => (Tab.get? x.handles h).isNone) = some h → u.hubWriteAll x.ctx ws = .ok (v, true) →
    exec (.load q) s = .next (v.register q p x h oa db b))
  ∧ (∀ (s : State) (q n : Nat) (p : Packet) (x : Queue), Takes s q 1 p x → Tab.get? x.handles (field p.bytes 16 2) = some n →
    let o := Tab.get default s.objs n
    field p.bytes 18 2 < field o.header 16 2 → launchFault p.bytes o (s.context x.ctx).savesize.toNat = none →
    Leads (.launch q) s fun t => t.hub.nextLaunch = s.hub.nextLaunch + 1
      ∧ t.launch? s.hub.nextLaunch = some (Launch.make p.bytes q x n o s.hub.time))
  ∧ (∀ (s u : State) (q i : Nat) (r : PkRun), s.heldBy (.queue q) = false → (s.queue q).nextRun = some (i, r) → pcmpl r.bytes = 0 →
    let c := (s.queue q).ctx
    s.hubWrite c (s.context c).logaddr.toNat (s.context c).logHeader = .ok (u, true) →
    exec (.packetCompletion q) s = .next (u.retirePacket q i r (pevt r.bytes)))

/-- Host messages read, write, bind and append as the CFG space and R411 say, and are answered. Rests on 13 R345, 13 R350, 15 R388, 16 R411, 16 R412, 16 R415, 16 R416, 16 R418, 16 R420, 09 R232. The ring place (log entry 9), the forms of fabric atomics (38) and PANCTL PHASE without a context that is enabled (79) are DESIGN CHOICES of the model; the queue states and answers that R411 and R412 do not give (76), the PUTs held, resumed and ended (116) and requests that wait for the pans of their tables (123) are DEDUCED. -/
def Obligations.HostMessagesAreAnswered : Prop :=
  (∀ (s u : State) (m : Msg), Handles .cfgrd s u m →
    (∀ v, u.cfgRead m.cfgAddr = .val v → exec .cfgrd s = .next (u.respond m 0 (leBytes 8 v)))
    ∧ (u.cfgRead m.cfgAddr = .bad → exec .cfgrd s = .next (u.respond m 4 [])))
  ∧ (∀ (s u : State) (m : Msg), Handles .cfgwr s u m →
    exec .cfgwr s = .next (match u.cfgWrite m.cfgAddr m.value with | some t => t.respond m 0 [] | none => u.respond m 4 []))
  ∧ (∀ (s u : State) (m : Msg), Handles .ctxctlWrite s u m →
    let g := BitVec.ofNat 5 (m.value / 2 ^ 48)
    let o := BitVec.ofNat 35 (m.value / 2 ^ 13)
    let c := u.context m.cfgCtx
    ((c.en = true ∧ (c.rootg ≠ g ∨ c.rootoff ≠ o)) → exec .ctxctlWrite s = .next (u.respond m 4 []))
    ∧ ((c.en = false ∨ (c.rootg = g ∧ c.rootoff = o)) → m.value / 2 ^ 63 % 2 = 0 →
      exec .ctxctlWrite s = .next (((u.modCtx m.cfgCtx fun x => { x with en := false, rootg := g, rootoff := o }).recount false).respond m 0 []))
    ∧ ((c.en = false ∨ (c.rootg = g ∧ c.rootoff = o)) → m.value / 2 ^ 63 % 2 = 1 →
      Leads .ctxctlWrite s fun t => (t.context m.cfgCtx).en = true ∧ (t.context m.cfgCtx).rootg = g ∧ (t.context m.cfgCtx).rootoff = o
        ∧ (t.context m.cfgCtx).bwphase = 0 ∧ t.out = u.out ++ [.resp m.src m.tag 0 false []]))
  ∧ (∀ (s u : State) (m : Msg) (f : RFault), u.namedFault m = some f →
    (Handles .faultctlResume s u m → exec .faultctlResume s = .next ((u.clearFault f).respond m 0 []))
    ∧ (∀ k, Handles .faultctlEnd s u m → u.faultWord f = none → u.faultPut f = none → u.heldPut f.req = none → u.faultKern f = some k →
      exec .faultctlEnd s = .next (((u.clearFault f).uncontained k.kid 0x05 0 0 0 (pcValue k.ctl.pc 0) 0 0).respond m 0 []))
    ∧ (∀ q i r, Handles .faultctlEnd s u m → u.faultWord f = some (q, i, r) →
      exec .faultctlEnd s = .next (((u.clearFault f).retirePacket q i r true).respond m 0 []))
    ∧ (∀ p, Handles .faultctlEnd s u m → u.faultWord f = none → u.faultPut f = none → u.heldPut f.req = some p →
      exec .faultctlEnd s = .next (((u.clearFault f).dropPut p).respond m 0 [])))
  ∧ (∀ (s u : State) (m : Msg),
    let x := u.queue m.cfgQueue
    let go := fun (st : QState) => (u.modQueue m.cfgQueue fun y => { y with st := st }).respond m 0 []
    (Handles .qctlBind s u m → exec .qctlBind s = .next (if x.st = .unbound then
      (u.modQueue m.cfgQueue fun y => { y with st := .stopped, ctx := m.value / 2 ^ 8 % 2 ^ 6, rank := m.value / 2 ^ 16 % 2 ^ 3, ringnext := 0 }).respond m 0 []
      else u.respond m 4 []))
    ∧ (Handles .qctlStart s u m → exec .qctlStart s = .next (if x.st = .stopped then go .running else u.respond m 4 []))
    ∧ (Handles .qctlHold s u m → exec .qctlHold s = .next (if x.st = .running then go .held else u.respond m 4 []))
    ∧ (Handles .qctlRelease s u m → exec .qctlRelease s = .next (if x.st = .held then go .running else u.respond m 4 []))
    ∧ (Handles .qctlUnbind s u m → x.handles = [] → exec .qctlUnbind s = .next
      (if x.st ≠ .unbound ∧ x.fifo = [] ∧ x.spill = [] ∧ x.cur = [] then
        (u.modQueue m.cfgQueue fun y => { y with st := .unbound, handles := [] }).respond m 0 [] else u.respond m 4 [])))
  ∧ (∀ (s u : State) (m : Msg), Handles .pwrctlWrite s u m →
    let v := m.value % 2 ^ 11
    exec .pwrctlWrite s = .next (if 500 ≤ v ∧ v ≤ 2000 then { u with hub := { u.hub with pwrctl := v } }.respond m 0 [] else u.respond m 4 []))
  ∧ (∀ (s u : State) (m : Msg), Handles .qappend s u m → u.sourceBusy m.src = false →
    let q := m.addr % 2 ^ 7
    let x := u.queue q
    let p : Packet := ⟨(List.range 128).map fun i => m.data.getD i 0, none, false, none⟩
    (x.st = .unbound → exec .qappend s = .next (u.respond m 5 []))
    ∧ (x.st = .stopped → exec .qappend s = .next ((u.modQueue q fun y =>
        { y with cur := y.cur ++ [⟨p.bytes, .done 0x41 0 0, none, false, none⟩] }).respond m 3 []))
    ∧ (x.st = .running ∨ x.st = .held →
      (x.spill = [] → x.fill < 16 → exec .qappend s = .next ((u.modQueue q fun y => { y with fifo := y.fifo ++ [p] }).respond m 0 []))
      ∧ (x.spill ≠ [] ∨ 16 ≤ x.fill →
        (x.ringFill < x.ringcap.toNat →
          let joined := u.modQueue q fun y =>
            { y with spill := y.spill ++ [{ p with ring := some y.ringnext }], ringnext := y.ringnext + 1, owed := y.owed ++ [y.ringnext] }
          exec .qappend s = .next ((joined.writeOwed q x.ringnext).respond m 0 []))
        ∧ (x.ringcap.toNat ≤ x.ringFill → exec .qappend s = .next (u.respond m 2 [])))))
  ∧ (∀ (s u : State) (m : Msg) (l : List (Nat × Nat × Trans)), (u.context m.ctx).en = true →
    (Handles .memrd s u m → s.answerReq false = none →
      (∀ v, u.reachMsg m = (v, false) → exec .memrd s = .next v)
      ∧ (∀ v, u.reachMsg m = (v, true) → v.hostLines m false = some l → exec .memrd s = .next (v.startReq m false none none false l)))
    ∧ (Handles .memwr s u m → s.answerReq true = none → s.retryPut = none → m.amo = none → m.put = true → (u.heldPut (.remote m.via m.src)).isSome = true →
      exec .memwr s = .next { u with hostIn := u.hostIn.drop 1, putsHeld := u.putsHeld ++ [m] })
    ∧ (Handles .memwr s u m → s.answerReq true = none → s.retryPut = none →
      (m.amo.isSome = true ∨ m.put = false ∨ u.heldPut (.remote m.via m.src) = none) →
      (∀ v, u.reachMsg m = (v, false) → exec .memwr s = .next v)
      ∧ (∀ v, u.reachMsg m = (v, true) →
        (m.amo = none → m.put = false → v.hostLines m true = some l → m.poison = false → exec .memwr s = .next (v.startReq m true none none true l))
        ∧ (m.amo = none → m.put = false → v.hostLines m true = none → exec .memwr s = .next (v.respond m 1 []))
        ∧ (m.amo = none → m.put = true → (∀ f ∈ v.ufaults, f.ctx ≠ m.ctx) → v.hostLines m true = none →
          ∃ va e, v.hostFault m = some (va, e)
            ∧ exec .memwr s = .next ({ v with hostIn := v.hostIn.drop 1, putsHeld := m :: v.putsHeld }.replayable (.remote m.via m.src) m.ctx va e))
        ∧ (∀ op y, m.amo = some op → (m.len = 4 ∨ (m.len = 8 ∧ op ≠ 1)) → m.addr % m.len = 0 → v.translate m.ctx m.addr true = .ok y →
          exec .memwr s = .next (v.startReq m true none (some (op, m.data)) y.sysatom (if y.sysatom then [(0, m.len, y)]
            else (List.range (m.len / 4)).map fun i => (4 * i, 4, { y with va := y.va + 4 * i, pa := y.pa + 4 * i })))))))
  ∧ (∀ s t : State, (s.answerReq false = some t → exec .memrd s = .next t) ∧ (s.answerReq true = some t → exec .memwr s = .next t)
    ∧ (s.answerReq true = none → s.retryPut = some t → exec .memwr s = .next t)
    ∧ (s.answerPan = some t → exec .fabricPanctl s = .next t))
  ∧ (∀ (s u : State) (m : Msg), Handles .fabricPanctl s u m → s.answerPan = none → field m.data 0 1 = 2 → phaseBad (field m.data 16 8) = false →
    m.panReserved = false →
    exec .fabricPanctl s = .next ((u.applyPhase m.ctx (BitVec.ofNat 42 (field m.data 16 8))).respond m 0 []))
  ∧ (∀ (s u : State) (m : Msg), (u.context m.keyCtx).en = false →
    (Handles .kemctWrite s u m → exec .kemctWrite s = .next ((u.modCtx m.keyCtx fun c =>
      { c with kemct := Tab.set c.kemct (m.cfgAddr % 4096 / 8) (BitVec.ofNat 64 m.value) }).respond m 0 []))
    ∧ (Handles .keyctlInstall s u m → exec .keyctlInstall s = .next ((u.installKeys m.keyCtx).respond m 0 []))
    ∧ (Handles .keyctlErase s u m → exec .keyctlErase s = .next ((u.modCtx m.keyCtx fun c =>
      { c with kemct := [], keySt := 0, keyid := 0, keys := [] }).respond m 0 [])))
  ∧ (∀ (s u : State) (m : Msg), Handles .attctlStart s u m →
    (u.hub.attBusy = true → exec .attctlStart s = .next (u.respond m 4 []))
    ∧ (u.hub.attBusy = false → m.value % 2 = 0 → exec .attctlStart s = .next (u.respond m 0 []))
    ∧ (u.hub.attBusy = false → m.value % 2 = 1 →
      exec .attctlStart s = .next ({ u with hub := { u.hub with
        attBusy := true, attReady := false, attFail := false, report := u.hub.reportHead } }.respond m 0 [])))

/-- Management commands, bring-up, attestation and uncontained faults. Rests on 14 R360, 14 R382, 14 R383, 14 R384, 16 R417, 16 R418, 16 R421. The end of stops at a released claim (log entry 40), the boundary scan (81) and several faults handled together (116) are DEDUCED. -/
def Obligations.ManagementAndBringUp : Prop :=
  (∀ (s : State) (rest : List Mgmt),
    (∀ v, s.mgmtIn = .nodeid v :: rest → exec .nodeidWrite s = .next { s with hub := { s.hub with nodeid := v }, mgmtIn := rest })
    ∧ (∀ b, s.mgmtIn = .claim true b :: rest → exec .debugClaim s = .next { s with hub := { s.hub with debug := true, brk := b }, mgmtIn := rest })
    ∧ (∀ b, s.mgmtIn = .claim false b :: rest → Leads .debugClaim s fun t => t.hub.debug = false ∧ t.hub.brk = b
      ∧ (∀ k ∈ t.kerns, k.ctl.wait ≠ .debug) ∧ (∀ d ∈ t.doms, d.2.hard = false))
    ∧ (∀ c on, s.mgmtIn = .step c on :: rest → exec .singleStepArm s = .next { s with
        cores := Tab.put Core.idle s.cores c { s.core c with stepArm := on }, mgmtIn := rest })
    ∧ (∀ n ls, s.mgmtIn = .hardStop n ls :: rest → exec .hardStopRequest s = .next { s with
        hub := { s.hub with hardStops := s.hub.hardStops ++ [(n, ls)] }, mgmtIn := rest })
    ∧ (∀ p v, s.mgmtIn = .set p v :: rest → exec .mgmtParameterSet s = .next { s with hub := s.hub.set p v, mgmtIn := rest })
    ∧ (∀ c, s.mgmtIn = .service c :: rest → Leads .coreReturnedToService s fun t =>
        t.hub.outOfService = s.hub.outOfService.filter (· != c) ∧ t.mgmtIn = rest
        ∧ t.cores = Tab.put Core.idle s.cores c { s.core c with retired := false }))
  ∧ (∀ s : State, Leads .mgmtStatusRead s fun t => ∃ a b, t = { s with out := s.out ++ [.mgmt a b ((List.range 4).map (Tab.get 0 s.hub.counts))] })
  ∧ (∀ s : State, s.hub.up = false → exec .resetRelease s = .next { s with hub := { s.hub with up := true, verified := Config.firmwareVerifies } })
  ∧ (∀ s : State, s.hub.up = true → s.hub.linksUp = false → exec .linkTrainingDone s = .next { s with
      hub := { s.hub with linksUp := true, timeSynced := true }, out := s.out ++ [.event 0x05 0 0 0 []] })
  ∧ (∀ s : State, exec .boundaryScanAccess s = .next s)
  ∧ (∀ s : State, s.hub.attBusy = true →
    let r := stamped s.hub.report s.hub.time
    exec .attestationReportDone s = .next { s with hub := if Config.identityOk s.hub.time = true
      then { s.hub with attBusy := false, attReady := true, report := r ++ (Config.sign r).toList }
      else { s.hub with attBusy := false, attFail := true, report := r } })
  ∧ (∀ (s : State) (f : UFault) (rest : List UFault), s.ufaults = f :: rest →
    let more := rest.filter fun g => g.ctx == f.ctx
    let w := s.hubWrite f.ctx ((s.context f.ctx).logaddr.toNat + 64 * 0x7FFF) (s.faultRecord (more.getLastD f))
    (∀ u, w = .ok (u, false) → exec .uncontainedFault s = .next u)
    ∧ (∀ u, (∃ e, w = .error e ∧ u = s) ∨ w = .ok (u, true) →
      Leads .uncontainedFault s fun t => t.mem = u.mem ∧ t.out = u.out ++ (f :: more).map (fun g => .event 0x04 f.ctx g.code 0 [])
        ∧ t.ufaults = rest.filter (fun g => g.ctx != f.ctx) ∧ (∀ l ∈ t.launches, l.2.ctx ≠ f.ctx)))

/-- GSET, CSET, LEND, LEND.RET and MWAIT change the matrix unit's own state. Rests on 10 R267, 10 R269, 10 R265, 10 R278. -/
def Obligations.MatrixStateOperations : Prop :=
  ((∀ (o : Op) (s t u : State) (p : MPlan) (aw cw : Nat),
    Runs (.gset o) o s t → Reads (planGset o) t (p, aw, cw, none) u → Touchable p.touch u →
    let sz := fun w => (entOf (u.cur.entry (bitsOf w 7 0))).sz 0
    exec (.gset o) s = .next (u.modKern u.issue.kid fun k => { k with mat :=
      { k.mat with ai := bitsOf aw 7 0, apos := bitsOf aw 31 8, ci := bitsOf cw 7 0, cpos := bitsOf cw 31 8
                   left := min (sz aw - bitsOf aw 31 8) (sz cw - bitsOf cw 31 8) } }).advanceSlot)
  ∧ (∀ (o : Op) (s t u : State) (p : MPlan) (aw cw i n : Nat) (x : Tens),
    Runs (.gset o) o s t → Reads (planGset o) t (p, aw, cw, some (x, i)) u → Touchable p.touch u → u.quiet →
    Reads (readIndex (u.cur.bufLast .ab) x i) u n u →
    exec (.gset o) s = .next (u.modKern u.issue.kid fun k => { k with mat :=
      { k.mat with ai := bitsOf aw 7 0, apos := bitsOf aw 31 8, ci := bitsOf cw 7 0, cpos := bitsOf cw 31 8
                   left := n } }).advanceSlot)
  ∧ (∀ (o : Op) (s t u v : State) (r : BitVec 512) (x : Tens),
    Runs (.cset o) o s t → Reads (readRecord o.a) t r u → Reads (tensorIn (r.toNat % 2 ^ 8) .ab) u x v → Touchable x.spans v →
    r.toNat / 2 ^ 80 = 0 → x.fields.layout = 0 → x.fields.ndm1 = 2 → arrayFormat x.format = true →
    (x.format.scaled = true → x.fields.sz 0 % 64 = 0) →
    exec (.cset o) s = .next (v.modKern v.issue.kid fun k => { k with mat := { k.mat with cset := some (r, x) } }).advanceSlot))
  ∧ ((∀ (o : Op) (s t : State), Runs (.lend o) o s t →
    let b := lendBase o
    let lands := t.cur.flights.any fun f =>
      match f.dst with | .vreg (some i) _ _ _ => decide (b ≤ i) && decide (i < b + 32) && decide (t.cur.cyc < f.due) | _ => false
    (t.cur.isLent b = true → Traps (.lend o) s 0x02 s.slotWord 0)
    ∧ (t.cur.isLent b = false → lands = true → Traps (.lend o) s 0x06 s.slotWord 0)
    ∧ (t.cur.isLent b = false → lands = false →
      exec (.lend o) s = .next (t.modKern t.issue.kid fun k => k.setLent b true).advanceSlot))
  ∧ (∀ (o : Op) (s t : State), Runs (.lendRet o) o s t →
    (t.cur.isLent (lendBase o) = false → Traps (.lendRet o) s 0x02 s.slotWord 0)
    ∧ (t.cur.isLent (lendBase o) = true →
      exec (.lendRet o) s = .next (t.modKern t.issue.kid fun k => k.setLent (lendBase o) false).advanceSlot))
  ∧ (∀ (o : Op) (s t : State), Runs (.mwait o) o s t →
    exec (.mwait o) s = .next (t.modKern t.issue.kid fun k => { k with mat := { k.mat with hold := k.matClear } }).advanceSlot))

/-- Units wake, entries arrive, pops are fetched, loops pass, domains restart and are throttled. Rests on 06 R147, 06 R158, 08 R203, 08 R217, 06 R153, 06 R154, 06 R167. That index elements are read in a step of their own, one cycle ahead, is a DESIGN CHOICE of the model: log entry 101. -/
def Obligations.CoreAndDomainTiming : Prop :=
  ((∀ (s : State) (k : Nat) (x : Kern), s.kern? k = some x →
    Leads (.bankWakeDone k) s fun t => t.mem = s.mem ∧ t.has k fun y =>
      y = { x with units := x.units.filter fun u => match u.2 with | .waking c => decide (x.cyc < c) | _ => true })
  ∧ (∀ (s : State) (k : Nat) (x : Kern) (i : Nat) (e : XEntry), s.kern? k = some x → s.arriving x = some (i, e) →
    let held := (x.inbox.filter fun y => y.st != .flying).length
    (held < 8 → Leads (.xentryArrival k) s fun t => t.has k fun y =>
      y = { x with inbox := modifyAt (fun z => { z with st := .arrived }) x.inbox i })
    ∧ (8 ≤ held → Leads (.xentryArrival k) s fun t => t.has k fun y =>
      y = { x with inbox := dropAt x.inbox i, ctl := { x.ctl with xOwed := x.ctl.xOwed ++ [e.src] } }))
  ∧ (∀ (s : State) (k st : Nat) (x : Kern) (z : Stream), s.kern? k = some x → Tab.get? x.streams st = some z →
    (x.indexDue st = true →
      Leads (.streamFetch k st) s fun t => t.mem = s.mem ∧ t.has k fun y => ∃ l m,
        Tab.get? y.streams st = some { z with ahead := some (x.cyc, l), made := m } ∧ (x.ab.ue = [] → l = x.popPlaces z z.next ∧ m = z.made))
    ∧ (x.indexDue st = false → x.fetchDue st = true →
      Leads (.streamFetch k st) s fun t => t.mem = s.mem ∧ t.has k fun y => ∃ (p : Pop) (m : Tab Origin),
        p.n = z.next ∧ p.at_ = x.cyc ∧ p.places = x.popPlaces z z.next
        ∧ (x.ab.ue = [] → p.r = x.popData z z.next ∧ p.owner = x.placesOwned z p.places ∧ m = z.made)
        ∧ Tab.get? y.streams st = some { z with pops := z.pops ++ [p], ahead := none, made := m }))
  ∧ (∀ (s : State) (k : Nat) (x : Kern) (l : LoopReg), s.kern? k = some x → x.ctl.boundary = true → x.ctl.handler = false →
    x.ctl.inner = some l →
    Leads (.loopPass k) s fun t => t.has k fun y =>
      y.ctl.boundary = false ∧ (y.regs, y.preds, y.vregs, y.masks) = (x.regs, x.preds, x.vregs, x.masks)
      ∧ match l.boundary (s.preempting x) with
        | (m, none) => y.ctl = { x.ctl.setInner m with boundary := false, pc := m.start } ∧ y.lat = x.lat
        | (m, some n) => y.ctl = { x.ctl.setInner m with boundary := false, pc := BitVec.ofNat 11 n } ∧ y.lat = []))
  ∧ ((∀ (s : State) (d : Nat) (x : Dom), s.dom? d = some x → x.restart = some 0 → s.domRuns d = true → x.frozen = false → s.anyYield d = false →
    Leads (.syncRestart d) s fun t =>
      (∃ y, t.dom? d = some y ∧ y = { x with restart := none, broken := false })
      ∧ t.kerns.length = s.kerns.length
      ∧ ∀ (n : Nat) (k y : Kern), s.kerns[n]? = some k → t.kerns[n]? = some y →
        (k.dom ≠ d → y = k)
        ∧ (∀ r, k.dom = d → k.ctl.wait = .sync r → y.ctl.wait = .none ∧ y.ctl.gap = 0 ∧ y.regs = k.regs ∧ y.lat = k.lat))
  ∧ (∀ (s : State) (d : Nat) (x : Dom), s.dom? d = some x → x.started = true → x.throttle = 0 →
    exec (.throttleBlock d) s = .next { s with doms := Tab.set s.doms d { x with throttle := 16 } }))

/-- EWR and ERD access an engine's registers; a reserved bit makes an EGO trap ILLEGAL. Rests on 09 R243, 09 R252, 09 R245, 11 R303, 12 R318, 16 R414. -/
def Obligations.EngineRegistersAndChecks : Prop :=
  ((∀ (o : Op) (s t u : State) (a : SVal), Runs (.ewr o) o s t → Reads (readScalar o.a) t a u →
    let e := (o.m.extractLsb' 0 3).toNat
    (a.tagged = true → Traps (.ewr o) s 0x10 s.slotWord a.origin)
    ∧ (a.tagged = false →
      exec (.ewr o) s = .next (u.modKern u.issue.kid fun k => k.modPort e fun p =>
        { p with sh := Tab.put 0 p.sh (o.m.extractLsb' 3 4).toNat a.v }).advanceSlot))
  ∧ (∀ (o : Op) (s t : State), Runs (.erd o) o s t →
    let e := (o.m.extractLsb' 0 3).toNat
    let n := (o.m.extractLsb' 3 4).toNat
    t.soft = [] → exec (.erd o) s = .next (t.flown 2 (.sreg (destOf o t.cur) (Reg.ofWord (t.cur.erd e n))) true 0).advanceSlot)
  ∧ (∀ (o : Op) (s : State), s.issue.active = true →
    let e := (o.m.extractLsb' 0 3).toNat
    (s.cur.allots e = false → Traps (.ewr o) s 0x02 s.slotWord 0)
    ∧ ((s.cur.allots e = false ∨ (if e < 4 then 7 else if e < 6 then 8 else 5) ≤ (o.m.extractLsb' 3 4).toNat) →
      Traps (.erd o) s 0x02 s.slotWord 0))
  ∧ (∀ (k : Kern) (e : Nat), k.allots e = true ↔ e < 7 ∧ (e < 4 → e < k.res.copy) ∧ (e = 5 → k.res.ns = 256))
  ∧ (∀ (k : Kern) (e : Nat), k.erd e 0 = (k.port e).xdone.setWidth 64 ∧ k.erd e 1 = (k.port e).last.setWidth 64))
  ∧ ((∀ i ∈ [Instr.egoMerge, .egoInter, .egoExpand, .egoHist, .egoPsum, .egoHbuild, .egoHprobe, .egoRules, .egoNnz],
    ∀ (o : Op) (s t : State) (n : Nat), Runs (i o) o s t → (∀ j < n, keyReserved j (Tab.get 0 t.cur.key.sh j).toNat = false) →
    n < 3 → keyReserved n (Tab.get 0 t.cur.key.sh n).toNat = true → Traps (i o) s 0x02 (BitVec.ofNat 64 (s.slotWord.toNat + n * 2 ^ 48)) 0)
  ∧ (∀ (o : Op) (s t : State) (n : Nat), Runs (.egoPflip o) o s t → n < 16 →
    (∀ j < n, circReserved j (Tab.get 0 t.cur.circP.sh j).toNat = false) → circReserved n (Tab.get 0 t.cur.circP.sh n).toNat = true →
    Traps (.egoPflip o) s 0x02 (BitVec.ofNat 64 (s.slotWord.toNat + n * 2 ^ 48)) 0)
  ∧ (∀ i ∈ [Instr.egoLsend, .egoLrecv, .egoLradd], ∀ (o : Op) (s t : State), Runs (i o) o s t →
    linkReserved 0 (Tab.get 0 t.cur.link.sh 0).toNat = true → Traps (i o) s 0x02 s.slotWord 0))

/-- Results land in their registers, delayed writes on their own bytes. Rests on 04 R85, 05 R104, 04 R93, 06 R157, 07 R193, 08 R217, 10 R264, 10 R271, 10 R273. -/
def Obligations.ResultsAndDelayedWritesLand : Prop :=
  (∀ (s : State) (k : Nat) (x : Kern), s.kern? k = some x →
    Leads (.resultWriteback k) s fun t => t.mem = s.mem ∧ t.has k fun y =>
      y.cyc = x.cyc ∧ y.flights = x.flights.filter (fun f => !decide (f.due ≤ x.cyc))
      ∧ (∀ (f : Flight) (r : Reg) (i : Nat), x.dueFlights = [f] → f.dst = .sreg (some i) r →
          y.regs = Tab.put Reg.zero x.regs i { r with pend := (Tab.get Reg.zero x.regs i).pend })
      ∧ (∀ f : Flight, x.dueFlights = [f] →
          y.spr.fpflags = x.spr.fpflags ||| f.flags
          ∧ (f.hnd = false → f.flags &&& x.spr.fpctl ≠ 0 → y.spr.fpOwed = x.spr.fpOwed ++ [fpTval f])))
  ∧ ((∀ e ∈ delayedEvents, ∀ (s : State) (k : Nat) (x : Kern) (i : Nat) (d : DWrite),
    s.kern? k = some x → x.dueWrite = some (i, d) → d.kind = e.1 → x.clean →
    Leads (e.2 k) s fun t => t.mem = s.mem ∧ t.has k fun y =>
      ((dropAt x.dw i).any d.contests = false → y.dw = dropAt x.dw i)
      ∧ y.dw.length = (dropAt x.dw i).length
      ∧ (∀ f ∈ y.dw, ∃ e ∈ dropAt x.dw i, f = { e with writes := f.writes } ∧ f.writes.Sublist e.writes
        ∧ ∀ w ∈ e.writes, (d.contests e = false ∨ d.reaches w = false) → w ∈ f.writes)
      ∧ y.scales = d.scales.foldl (fun z r => Tab.put 0 z r.1 r.2) x.scales
      ∧ y.vregs = d.regs.foldl (fun z r => Tab.put VReg.zero z r.1 r.2) x.vregs
      ∧ (∀ (b : BufId) (a : Nat), (∀ w ∈ x.allWrites d, w.spares b a) → (y.buf b).mem.byte a = (x.buf b).mem.byte a)
      ∧ (∀ (b : BufId) (a : Nat), b ≠ .dm → (x.buf b).mem.wf = true → (∀ w ∈ d.writes, w.buf = b → w.mark.isSome = true → w.addr / 32 ≠ a / 32) →
        (Tab.get? (x.buf b).marks (a / 32) = none ∨ ∀ i < 32, ∃ w ∈ d.writes, w.gives b (a / 32 * 32 + i)) →
        (∀ l w m, d.writes = l ++ w :: m → w.gives b a → (∀ v ∈ m, ¬ v.gives b a) → (b = .ab → ∀ z ∈ d.bits, z.1 ≠ a) →
          (y.buf b).mem.byte a = w.bytes.getD (a - w.addr) 0)
        ∧ (b = .ab → ∀ l z m, d.bits = l ++ z :: m → z.1 = a → (∀ v ∈ l ++ m, v.1 ≠ a) → (∀ w ∈ d.writes, ¬ w.gives b a) →
          (y.buf b).mem.byte a = (z.2.1 &&& z.2.2) ||| ((x.buf b).mem.byte a &&& ~~~z.2.2)))
      ∧ (∀ w ∈ d.writes, w.buf ≠ .dm → ∀ o : Origin, w.mark = some o → (∀ v ∈ d.writes, v.buf = w.buf → v.addr / 32 = w.addr / 32 → v.mark.isSome = true → v = w) →
        Tab.get? (y.buf w.buf).marks (w.addr / 32) = some o))
  ∧ (∀ e ∈ delayedEvents, ∀ (s t : State) (k : Nat) (x y : Kern) (i j : Nat) (d f : DWrite),
    s.kern? k = some x → x.dueWrite = some (i, d) → d.kind = e.1 → d.kind ≠ .exchange → exec (e.2 k) s = .next t →
    t.kern? k = some y → y.dueWrite = some (j, f) → f.kind = .exchange → f.due = d.due → f.bits = [] → x.clean → y.clean →
    ∃ g ∈ dropAt x.dw i, f = { g with writes := f.writes } ∧ Leads (.bufferWriteTakesEffect k) t fun u => u.mem = t.mem ∧ u.has k fun z =>
      ∀ w ∈ g.writes, w.buf ≠ .dm → ∀ a : Nat, w.gives w.buf a → (∀ v ∈ g.writes, v ≠ w → v.spares w.buf a) → (y.buf w.buf).mem.wf = true →
        Tab.get? (y.buf w.buf).marks (a / 32) = none →
        (z.buf w.buf).mem.byte a = w.bytes.getD (a - w.addr) 0
        ∨ (d.reaches w = true ∧ (z.buf w.buf).mem.byte a = (y.buf w.buf).mem.byte a)))

/-- TDEF, TRD, FMTSET, SPAT, SRST and SRST.CLR set up tensors, formats and streams. Rests on 08 R214, 08 R220, 08 R221, 08 R222, 08 R219, 08 R223, 08 R224. SRST.CLR of an empty stream is log entry 109: the model's. That SPAT and SRST leave their bundle, slot, word and operands with the stream, for the origins of its fetches, is DEDUCED: log entry 115. TVAL of a record whose tensor may not be used is a free value: log entry 26, a DESIGN CHOICE. -/
def Obligations.TensorsFormatsAndStreams : Prop :=
  ((∀ (o : Op) (s t u : State) (r : BitVec 512), Runs (.tdef o) o s t → Reads (readRecord o.a) t r u →
    ((entOf r).valid = true →
      ((entOf r).malformed = true → Traps (.tdef o) s 0x02 s.slotWord 0)
      ∧ ((entOf r).malformed = false → ∃ x : BitVec 512, (∀ n < 512, x.getLsbD n = (r.getLsbD n && !(decide (384 ≤ n) && decide (n < 388))))
        ∧ exec (.tdef o) s = .next (u.modKern u.issue.kid fun k => { k with tdt := Tab.put 0 k.tdt o.m.toNat x }).advanceSlot))
    ∧ ((entOf r).valid = false →
      ∃ x : BitVec 512, (∀ n < 512, x.getLsbD n = if n < 64 then r.getLsbD n else (u.cur.entry o.m.toNat).getLsbD n)
      ∧ exec (.tdef o) s = .next (u.modKern u.issue.kid fun k => { k with tdt := Tab.put 0 k.tdt o.m.toNat x }).advanceSlot))
  ∧ (∀ (o : Op) (s t u : State) (a : SVal), Runs (.trd o) o s t → Reads (readScalar o.a) t a u →
    (a.tagged = true → Traps (.trd o) s 0x11 s.slotWord a.origin)
    ∧ (a.tagged = false → 7 < a.v.toNat → Traps (.trd o) s 0x02 s.slotWord 0)
    ∧ (a.tagged = false → a.v.toNat ≤ 7 → u.soft = [] →
      let x := ((u.cur.entry o.m.toNat).extractLsb' (64 * a.v.toNat) 64).toNat
      exec (.trd o) s = .next (u.flown 2 (.sreg (destOf o u.cur) (Reg.ofWord (BitVec.ofNat 64
        (if a.v.toNat = 6 then x + u.cur.entryOwner o.m.toNat else x)))) true 0).advanceSlot))
  ∧ (∀ (o : Op) (s t u : State) (a : SVal), Runs (.fmtset o) o s t → Reads (readScalar o.a) t a u →
    (a.tagged = true → Traps (.fmtset o) s 0x10 s.slotWord a.origin)
    ∧ (a.tagged = false → 2 ^ 32 ≤ a.v.toNat → Traps (.fmtset o) s 0x02 s.slotWord 0)
    ∧ (a.tagged = false → a.v.toNat < 2 ^ 32 →
      ((Fmt.ofDesc (a.v.setWidth 32)).isNone = true → Traps (.fmtset o) s 0x02 a.v 0)
      ∧ ((Fmt.ofDesc (a.v.setWidth 32)).isSome = true → exec (.fmtset o) s = .next (u.modKern u.issue.kid fun k =>
          { k with fmts := Tab.put 0x0020_0000 k.fmts o.m.toNat (a.v.setWidth 32) }).advanceSlot)))
  ∧ (∀ (o : Op) (s : State), ∀ i ∈ [Instr.tdef o, .trd o, .waito o], s.issue.active = true → s.cur.res.tdt ≤ o.m.toNat →
    Traps i s 0x02 s.slotWord 0))
  ∧ ((∀ (o : Op) (s t u : State) (r : BitVec 512), Runs (.spat o) o s t → Reads (readRecord o.a) t r u →
    let n := (o.m.extractLsb' 0 3).toNat
    (u.cur.recordBad r = true → u.cur.recordVals r = [] → Traps (.spat o) s 0x02 s.slotWord 0)
    ∧ (u.cur.recordBad r = true → ∃ v ∈ s.slotWord.toNat :: u.cur.recordVals r, Traps (.spat o) s 0x02 (BitVec.ofNat 64 v) 0)
    ∧ (u.cur.recordBad r = false → ∃ x : Stream, x.rec_ = r ∧ x.pos = 0 ∧ x.start = u.cur.cyc ∧ x.vtimes = [] ∧ x.pops = [] ∧ x.ahead = none
      ∧ x.loc = u.issue.addr.toNat + u.issue.slot * 2 ^ 11 ∧ x.insn = u.slotWord.toNat ∧ x.opnd = r.toNat % 2 ^ 128 ∧ x.made = []
      ∧ some x.tens = (u.cur.capture (r.toNat % 2 ^ 8)).head?
      ∧ x.itens = (if r.getLsbD 9 then (u.cur.capture (r.toNat / 2 ^ 16 % 2 ^ 8)).head? else none)
      ∧ exec (.spat o) s = .next (u.modKern u.issue.kid fun k => { k with streams := Tab.set k.streams n x }).advanceSlot))
  ∧ (∀ (o : Op) (s t : State), Runs (.srst o) o s t →
    let n := (o.m.extractLsb' 0 3).toNat
    (Tab.get? t.cur.streams n = none → Traps (.srst o) s 0x02 s.slotWord 0)
    ∧ (∀ x : Stream, Tab.get? t.cur.streams n = some x →
      exec (.srst o) s = .next (t.modKern t.issue.kid fun k =>
        { k with streams := Tab.set k.streams n { x with start := t.cur.cyc, pos := 0, vtimes := [], pops := [], ahead := none,
                                                                  loc := t.issue.addr.toNat + t.issue.slot * 2 ^ 11, insn := t.slotWord.toNat,
                                                                  opnd := 0, made := [] } }).advanceSlot))
  ∧ (∀ (o : Op) (s t : State), Runs (.srstClr o) o s t →
    let n := (o.m.extractLsb' 0 3).toNat
    exec (.srstClr o) s = .next (t.modKern t.issue.kid fun k => { k with streams := k.streams.erase n }).advanceSlot)
  ∧ (∀ (o : Op) (s : State), ∀ i ∈ [Instr.spat o, .srst o, .srstClr o], s.issue.active = true →
    s.cur.res.st ≤ (o.m.extractLsb' 0 3).toNat → Traps i s 0x02 s.slotWord 0))

/-! ## The machine as a whole -/

namespace Sys2Proof.Machine

/-- The opcodes of a class (03 R65-R68). -/
def opcodes (cl : SlotClass) : List Nat :=
  let upTo := fun (lo hi : Nat) => (List.range (hi + 1 - lo)).map (· + lo)
  match cl with
  | .c => [0x000, 0x001, 0x002, 0x003, 0x004, 0x005] ++ [0x010, 0x011] ++ upTo 0x020 0x027 ++ upTo 0x030 0x035
  | .s => upTo 0x000 0x01D ++ upTo 0x040 0x04C ++ upTo 0x060 0x064 ++ upTo 0x080 0x085
  | .v => upTo 0x000 0x011 ++ upTo 0x020 0x02B ++ upTo 0x040 0x042 ++ upTo 0x050 0x055 ++ upTo 0x060 0x062 ++ upTo 0x070 0x074
      ++ upTo 0x080 0x082
  | .m => upTo 0x001 0x00B
  | .e => upTo 0x000 0x00C

/-- The operations of the C slot that must be unguarded (06 R141). -/
def unguardedOps : List (Op → Instr) := [.sync, .yield, .loop, .rft, .halt, .ifence, .cuienOn, .cuienOff]

/-- The checks before a slot operation's own effect that its fields, the kernel's allotment and the slot's occupancy decide (03 R64
check 2). -/
def FieldsPass (i : Instr) (s : State) : Prop :=
  i.fieldsOk s.issue.slot (hdrNlit (bundleHeader s.issue.bundle)) = true ∧ s.cur.limitsOk i = true ∧ occupied s.cur s.issue.slot = false

/-- The slot's word is the shadow of the primary in its partner slot, which is present in this issue: the two words differ in bit 37
alone, which the shadow sets (05 R112; 03 R60). -/
def State.isShadow (s : State) : Prop :=
  let i := s.issue
  let p := partner i.slot
  p ≠ i.slot ∧ hdrPresent (bundleHeader i.bundle) p = true ∧ i.first ≤ p
  ∧ (∀ n < 48, (bundleSlot i.bundle i.slot).getLsbD n = ((bundleSlot i.bundle p).getLsbD n || n == 37))
  ∧ (bundleSlot i.bundle p).getLsbD 37 = false

/-- The slot's word is a primary that writes (NW, bit 24, is 0) and whose shadow issues in its partner slot (05 R112, R113). -/
def State.hasShadow (s : State) : Prop :=
  let i := s.issue
  let p := partner i.slot
  p ≠ i.slot ∧ hdrPresent (bundleHeader i.bundle) p = true ∧ i.first ≤ p
  ∧ (∀ n < 48, (bundleSlot i.bundle p).getLsbD n = ((bundleSlot i.bundle i.slot).getLsbD n || n == 37))
  ∧ (bundleSlot i.bundle i.slot).getLsbD 37 = false ∧ (bundleSlot i.bundle i.slot).getLsbD 24 = false

/-- The faults that strike the result of the slot that runs: the value differs from the true one by f, the value that the check bits
are computed from by g: the same, or, where a shadow computes it, its own; u is the state without them. -/
def Strikes (w : State) (f g : VBits) (u : State) : Prop :=
  let a := takeSoft w.issue.kid w.issue.slot w.soft
  let b := takeSoft w.issue.kid (partner w.issue.slot) a.2
  (w.hasShadow → f = a.1 ∧ g = b.1 ∧ u = { w with soft := b.2 }) ∧ (¬ w.hasShadow → f = a.1 ∧ g = a.1 ∧ u = { w with soft := a.2 })

/-- Two values differ in a way that the check bits find in any case: in one, two or three bits, or in an odd number (05 R113). -/
def alwaysFound (a b : Word) : Prop := (1 ≤ setBits (a ^^^ b) ∧ setBits (a ^^^ b) ≤ 3) ∨ setBits (a ^^^ b) % 2 = 1

end Sys2Proof.Machine

/-- Decoding an encoded slot operation gives it back, and a word that decodes is the encoding. Rests on 03 R49, 03 R62, 03 R63, 03 R66, 03 R67, 03 R68, 03 R69. -/
def Obligations.EncodeAndDecodeAgree : Prop :=
  (∀ (i : Instr) (f : Form) (w : BitVec 48), i.encodable = true → i.form = some f → encode i = some w → decodeClass f.cls w = .ok i)
  ∧ (∀ i : Instr, i.encodable = true → ∃ f w, i.form = some f ∧ encode i = some w)
  ∧ (∀ (cl : SlotClass) (w : BitVec 48) (i : Instr), decodeClass cl w = .ok i →
    encode i = some w ∧ i.encodable = true ∧ ∃ f, i.form = some f ∧ f.cls = cl)

/-- Every step keeps device memory in its canonical form. Rests on 13 R332, 05 R134. -/
def Obligations.StepsKeepMemoryCanonical : Prop :=
  ∀ s t : State, step s = .next t → s.Inv → t.Inv

/-- No slot operation changes device memory, its marks, its errors or a line queue, but for a packet that spills. Rests on 13 R332, 13 R333, 05 R134, 15 R386. -/
def Obligations.SlotsLeaveDeviceMemory : Prop :=
  ∀ (i : Instr) (o : Op) (s t : State), i.op? = some o → exec i s = .next t →
    (i = .qpost o → ∀ q, (s.queue q).spill = [] ∧ (s.queue q).fill < 16) →
    t.mem = s.mem ∧ t.marks = s.marks ∧ t.ue = s.ue ∧ t.lines = s.lines

/-- Fields are checked first, then the guard; a shadow form supplies the check bits of its primary and does nothing else. Rests on 03 R50, 03 R60, 03 R64, 05 R111, 05 R112, 05 R113, 06 R140, 06 R141, 07 R170, 07 R173, 07 R174. -/
def Obligations.GuardsAndShadowForms : Prop :=
  (∀ (i : Instr) (o : Op) (s : State), i.op? = some o → s.issue.active = true → ¬ FieldsPass i s → Traps i s 0x02 s.slotWord 0)
  ∧ (∀ i ∈ unguardedOps, ∀ (o : Op) (s : State), s.issue.active = true → (o.pred ≠ 0 ∨ o.pinv = true) → Traps (i o) s 0x02 s.slotWord 0)
  ∧ (∀ (i : Instr) (o : Op) (f : Form) (s t : State) (p : PredReg), i.op? = some o → i.form = some f → s.issue.active = true →
    FieldsPass i s → o.sh = false → o.pred ≠ 0 → (do occupy i; readPred o.pred.toNat : Slot PredReg) s = .ok (p, t) →
    (p.tag = true → Traps i s 0x10 s.slotWord p.org)
    ∧ (p.tag = false → p.v = o.pinv → (f.cls ≠ .c → exec i s = .next t.advanceSlot) ∧ (f.cls = .c → Ends i s t)))
  ∧ (∀ (i : Instr) (o : Op) (s t : State), i.op? = some o → s.issue.active = true → FieldsPass i s → o.sh = true →
    (s.isShadow → occupy i s = .ok ((), t) → exec i s = .next t.advanceSlot) ∧ (¬ s.isShadow → Traps i s 0x02 s.slotWord 0))
  ∧ (∀ r ∈ intRows, ∀ (o : Op) (s t u v w : State) (a b : SVal) (f g : VBits),
    Runs (r.ins o) o s t → Reads (readWidth o.w o.a) t a u → Reads (readWidth o.w o.b) u b v → a.tagged = false → b.tagged = false →
    Strikes v f g w →
    let x := r.value o.w a.v b.v
    exec (r.ins o) s = .next
      (w.flown r.lat (.sreg (destOf o w.cur) ⟨x ^^^ f.setWidth 64, false, false, x ^^^ g.setWidth 64, false⟩) true 0).advanceSlot)
  ∧ (∀ (o : Op), ∀ r ∈ vecIntRows o, ∀ (s t u v w z : State) (a b : VOp) (m : Word) (f g : VBits),
    Runs (r.ins o) o s t → Reads (readVector o.w o.a) t a u → Reads (readVector o.w o.b) u b v → Reads (controlMask o.m75 o.w) v m w →
    (∀ i < 64, a.tags.getLsbD i = false ∧ b.tags.getLsbD i = false) → Strikes w f g z →
    ∃ (x : VReg) (bytes : BitVec 256) (tagm : Word),
      exec (r.ins o) s = .next
        (z.flown r.lat (.vreg (if o.nw then none else some o.dst.toNat) ⟨x.v ^^^ f, x.tags, x.v ^^^ g⟩ bytes tagm) true 0).advanceSlot
      ∧ ∀ (old : VReg) (e : Nat), e < 64 → elem (mergeV x old bytes tagm).v e
        = (if m.getLsbD (laneOf o.w e) then element32 o.w e (r.laneValue o.w (a.lane o.w (laneOf o.w e)) (b.lane o.w (laneOf o.w e)))
           else elem old.v e))
  ∧ (∀ (o : Op) (s t : State), Runs (.mov o) o s t → o.a.toNat < 0x80 → t.cur.flights = [] →
    let r := Tab.get Reg.zero t.cur.regs (scalarIndex t.cur.ctl.handler o.a.toNat)
    alwaysFound r.v r.chk → exec (.mov o) s = .next (s.stopSlot .pipe))

/-- A slot whose opcode is not in its class traps UNDEF; an S1-only opcode in slot 1 traps ILLEGAL. Formalises 03 R63. -/
def Obligations.SlotsDecodeByTheirClass : Prop :=
  (∀ (cl : SlotClass) (w : BitVec 48), decodeClass cl w = .undef ↔ slotOpc w ∉ opcodes cl)
  ∧ (∀ (s : State) (j : Nat), s.issue.active = true → nextSlot (bundleHeader s.issue.bundle) 7 s.issue.slot = some j →
    let w := bundleSlot s.issue.bundle j
    let t := { s with issue := { s.issue with slot := j } }
    (slotOpc w ∉ opcodes (SlotClass.ofPos j) → step s = .next (t.stopSlot (.trap 0x01 (w.setWidth 64) 0)))
    ∧ (j = 1 → 0x080 ≤ slotOpc w → slotOpc w ≤ 0x085 → step s = .next (t.stopSlot (.trap 0x02 (w.setWidth 64) 0))))

/-- A step runs the decoded slot, then the next; between bundles the event that the state forces. Rests on 06 R140, 03 R62. -/
def Obligations.StepsRunWhatIsDecoded : Prop :=
  (∀ (s : State) (j : Nat) (i : Instr), s.issue.active = true → nextSlot (bundleHeader s.issue.bundle) 7 s.issue.slot = some j →
    decodeSlot j (bundleSlot s.issue.bundle j) = .ok i → step s = exec i { s with issue := { s.issue with slot := j } })
  ∧ (∀ s : State, s.issue.active = true → nextSlot (bundleHeader s.issue.bundle) 7 s.issue.slot = none → step s = .next s.finishBundle)
  ∧ (∀ (s : State) (i : Instr), s.issue.active = false → s.due = some i → step s = exec i s)
  ∧ (∀ (s : State) (n w : Nat) (i : Instr), decodeTableWord n w = some i →
    ∃ t : State, step (s.withFetchWord n w) = exec i t ∧ t.issue.active = true ∧ t.issue.bundle = BitVec.ofNat 512 w ∧ t.mem = s.mem)

/-- The words that the manual writes out decode to the instructions it gives them for. Rests on 05 R119, 09 R243, 13 R338, 13 R339, 16 R414. -/
def Obligations.WordsOfTheManualDecode : Prop :=
  decodeSlot 1 0x06C0_0604_F005 = .ok (.cmp { (default : Op) with dst := 0b0000011, a := 0x04, b := 0xF0, m := 0x05 })
  ∧ decodeSlot 6 0x0000_0090_0019 = .ok (.ewr { (default : Op) with a := 0x90, m := 0x19 })
  ∧ decodeSlot 6 0x0040_4C00_0101 = .ok (.egoCopy { (default : Op) with dst := 0b0100110, b := 0x01, m := 0x01 })
  ∧ decodeSlot 0 0x0940_0000_000C = .ok (.fenceFull { (default : Op) with m := 0x0C })
  ∧ decodeSlot 2 0x2080_4A21_F016 = .ok (.mld { (default : Op) with dst := 0b0100101, a := 0x21, b := 0xF0, m := 0x16 })
  ∧ decodeSlot 6 0x0040_4A00_0632 = .ok (.egoLradd { (default : Op) with dst := 0b0100101, b := 0x06, m := 0x32 })

/-- After reset queues are unbound with rank 7, groups are DEEP, contexts disabled, nothing runs. Rests on 15 R386, 09 R234, 09 R240, 16 R412. -/
def Obligations.ResetLeaves : Prop :=
  (∀ q < 128, State.reset.cfgRead (0x2_0000 + 64 * q) = .val (7 * 2 ^ 4))
  ∧ (∀ g < 32, (State.reset.pan g).st = .deep ∧ (State.reset.pan g).alloc = false ∧ (State.reset.pan g).hotcnt = 0)
  ∧ (∀ c < 64, (State.reset.context c).en = false ∧ (State.reset.context c).bwphase = 0)
  ∧ State.reset.Inv ∧ State.reset.marks = [] ∧ State.reset.kerns = [] ∧ State.reset.launches = [] ∧ State.reset.rfaults = []
  ∧ State.reset.issue.active = false
end

