-- ==== Sys2Proof/Laws/PerInstr.lean ====
section
/-! SUPPORT. Per-instruction facts about the encoding: an instruction has an encoding exactly when it is a slot operation, and its
opcode fits OPC (03 R49, R65-R68). -/

namespace Sys2Proof.Laws

/-- A slot operation has a form and an event none; the form's opcode fits the 10 bits of OPC. -/
def Encoding.Statement (i : Instr) : Prop := i.op?.isSome = i.form.isSome ∧ ∀ f, i.form = some f → f.opc < 2 ^ 10

theorem Encoding.bundleIssue k : Encoding.Statement (.bundleIssue k) := ⟨rfl, fun _ h => nomatch h⟩
theorem Encoding.resultWriteback k : Encoding.Statement (.resultWriteback k) := ⟨rfl, fun _ h => nomatch h⟩
theorem Encoding.mldDataLand k j : Encoding.Statement (.mldDataLand k j) := ⟨rfl, fun _ h => nomatch h⟩
theorem Encoding.fpTrap k : Encoding.Statement (.fpTrap k) := ⟨rfl, fun _ h => nomatch h⟩
theorem Encoding.step k : Encoding.Statement (.step k) := ⟨rfl, fun _ h => nomatch h⟩
theorem Encoding.cui k : Encoding.Statement (.cui k) := ⟨rfl, fun _ h => nomatch h⟩
theorem Encoding.syncRestart d : Encoding.Statement (.syncRestart d) := ⟨rfl, fun _ h => nomatch h⟩
theorem Encoding.yieldDecision site : Encoding.Statement (.yieldDecision site) := ⟨rfl, fun _ h => nomatch h⟩
theorem Encoding.loopPass k : Encoding.Statement (.loopPass k) := ⟨rfl, fun _ h => nomatch h⟩
theorem Encoding.throttleBlock d : Encoding.Statement (.throttleBlock d) := ⟨rfl, fun _ h => nomatch h⟩
theorem Encoding.preemptionPointStop k : Encoding.Statement (.preemptionPointStop k) := ⟨rfl, fun _ h => nomatch h⟩
theorem Encoding.contextSave l : Encoding.Statement (.contextSave l) := ⟨rfl, fun _ h => nomatch h⟩
theorem Encoding.contextRestore l ch : Encoding.Statement (.contextRestore l ch) := ⟨rfl, fun _ h => nomatch h⟩
theorem Encoding.overrun d : Encoding.Statement (.overrun d) := ⟨rfl, fun _ h => nomatch h⟩
theorem Encoding.xentryArrival k : Encoding.Statement (.xentryArrival k) := ⟨rfl, fun _ h => nomatch h⟩
theorem Encoding.streamFetch k st : Encoding.Statement (.streamFetch k st) := ⟨rfl, fun _ h => nomatch h⟩
theorem Encoding.streamStoreWrite k : Encoding.Statement (.streamStoreWrite k) := ⟨rfl, fun _ h => nomatch h⟩
theorem Encoding.bankWakeDone k : Encoding.Statement (.bankWakeDone k) := ⟨rfl, fun _ h => nomatch h⟩
theorem Encoding.matrixResultValid k : Encoding.Statement (.matrixResultValid k) := ⟨rfl, fun _ h => nomatch h⟩
theorem Encoding.wldGranuleWrite k : Encoding.Statement (.wldGranuleWrite k) := ⟨rfl, fun _ h => nomatch h⟩
theorem Encoding.accstDelivery k : Encoding.Statement (.accstDelivery k) := ⟨rfl, fun _ h => nomatch h⟩
theorem Encoding.storeLeave c j : Encoding.Statement (.storeLeave c j) := ⟨rfl, fun _ h => nomatch h⟩
theorem Encoding.loadSend c j : Encoding.Statement (.loadSend c j) := ⟨rfl, fun _ h => nomatch h⟩
theorem Encoding.linePerform ln : Encoding.Statement (.linePerform ln) := ⟨rfl, fun _ h => nomatch h⟩
theorem Encoding.engineAccess k e j : Encoding.Statement (.engineAccess k e j) := ⟨rfl, fun _ h => nomatch h⟩
theorem Encoding.ingressMove src j : Encoding.Statement (.ingressMove src j) := ⟨rfl, fun _ h => nomatch h⟩
theorem Encoding.pageWalk j : Encoding.Statement (.pageWalk j) := ⟨rfl, fun _ h => nomatch h⟩
theorem Encoding.panIdle g : Encoding.Statement (.panIdle g) := ⟨rfl, fun _ h => nomatch h⟩
theorem Encoding.panRetain g : Encoding.Statement (.panRetain g) := ⟨rfl, fun _ h => nomatch h⟩
theorem Encoding.panWakeDone g : Encoding.Statement (.panWakeDone g) := ⟨rfl, fun _ h => nomatch h⟩
theorem Encoding.panInitDone g : Encoding.Statement (.panInitDone g) := ⟨rfl, fun _ h => nomatch h⟩
theorem Encoding.scrubSweep g : Encoding.Statement (.scrubSweep g) := ⟨rfl, fun _ h => nomatch h⟩
theorem Encoding.originReservationRefill c : Encoding.Statement (.originReservationRefill c) := ⟨rfl, fun _ h => nomatch h⟩
theorem Encoding.segmentCommit k : Encoding.Statement (.segmentCommit k) := ⟨rfl, fun _ h => nomatch h⟩
theorem Encoding.segmentRewind k : Encoding.Statement (.segmentRewind k) := ⟨rfl, fun _ h => nomatch h⟩
theorem Encoding.rerunCompare k : Encoding.Statement (.rerunCompare k) := ⟨rfl, fun _ h => nomatch h⟩
theorem Encoding.copyTransferStart k e : Encoding.Statement (.copyTransferStart k e) := ⟨rfl, fun _ h => nomatch h⟩
theorem Encoding.expandBundleWrite k e : Encoding.Statement (.expandBundleWrite k e) := ⟨rfl, fun _ h => nomatch h⟩
theorem Encoding.copyComplete k e : Encoding.Statement (.copyComplete k e) := ⟨rfl, fun _ h => nomatch h⟩
theorem Encoding.keyStep cl : Encoding.Statement (.keyStep cl) := ⟨rfl, fun _ h => nomatch h⟩
theorem Encoding.keyOpComplete k : Encoding.Statement (.keyOpComplete k) := ⟨rfl, fun _ h => nomatch h⟩
theorem Encoding.circOpStart k : Encoding.Statement (.circOpStart k) := ⟨rfl, fun _ h => nomatch h⟩
theorem Encoding.sectionFetchDone k : Encoding.Statement (.sectionFetchDone k) := ⟨rfl, fun _ h => nomatch h⟩
theorem Encoding.circuitStep k : Encoding.Statement (.circuitStep k) := ⟨rfl, fun _ h => nomatch h⟩
theorem Encoding.circuitGroupDone k : Encoding.Statement (.circuitGroupDone k) := ⟨rfl, fun _ h => nomatch h⟩
theorem Encoding.circOpComplete k : Encoding.Statement (.circOpComplete k) := ⟨rfl, fun _ h => nomatch h⟩
theorem Encoding.linkMessageArrival die port : Encoding.Statement (.linkMessageArrival die port) := ⟨rfl, fun _ h => nomatch h⟩
theorem Encoding.linkOpComplete k : Encoding.Statement (.linkOpComplete k) := ⟨rfl, fun _ h => nomatch h⟩
theorem Encoding.linkTimeout k : Encoding.Statement (.linkTimeout k) := ⟨rfl, fun _ h => nomatch h⟩
theorem Encoding.pause die port : Encoding.Statement (.pause die port) := ⟨rfl, fun _ h => nomatch h⟩
theorem Encoding.resume die port : Encoding.Statement (.resume die port) := ⟨rfl, fun _ h => nomatch h⟩
theorem Encoding.flitReplay die port : Encoding.Statement (.flitReplay die port) := ⟨rfl, fun _ h => nomatch h⟩
theorem Encoding.portDown die port : Encoding.Statement (.portDown die port) := ⟨rfl, fun _ h => nomatch h⟩
theorem Encoding.gangPlacement l ch : Encoding.Statement (.gangPlacement l ch) := ⟨rfl, fun _ h => nomatch h⟩
theorem Encoding.domainStart d : Encoding.Statement (.domainStart d) := ⟨rfl, fun _ h => nomatch h⟩
theorem Encoding.launchEnd l : Encoding.Statement (.launchEnd l) := ⟨rfl, fun _ h => nomatch h⟩
theorem Encoding.packetCompletion q : Encoding.Statement (.packetCompletion q) := ⟨rfl, fun _ h => nomatch h⟩
theorem Encoding.nopq q : Encoding.Statement (.nopq q) := ⟨rfl, fun _ h => nomatch h⟩
theorem Encoding.launch q : Encoding.Statement (.launch q) := ⟨rfl, fun _ h => nomatch h⟩
theorem Encoding.load q : Encoding.Statement (.load q) := ⟨rfl, fun _ h => nomatch h⟩
theorem Encoding.unload q : Encoding.Statement (.unload q) := ⟨rfl, fun _ h => nomatch h⟩
theorem Encoding.waitval q : Encoding.Statement (.waitval q) := ⟨rfl, fun _ h => nomatch h⟩
theorem Encoding.waitvalReread q : Encoding.Statement (.waitvalReread q) := ⟨rfl, fun _ h => nomatch h⟩
theorem Encoding.signal q : Encoding.Statement (.signal q) := ⟨rfl, fun _ h => nomatch h⟩
theorem Encoding.barrier q : Encoding.Statement (.barrier q) := ⟨rfl, fun _ h => nomatch h⟩
theorem Encoding.xlateinv q : Encoding.Statement (.xlateinv q) := ⟨rfl, fun _ h => nomatch h⟩
theorem Encoding.panctlAlloc q : Encoding.Statement (.panctlAlloc q) := ⟨rfl, fun _ h => nomatch h⟩
theorem Encoding.panctlFree q : Encoding.Statement (.panctlFree q) := ⟨rfl, fun _ h => nomatch h⟩
theorem Encoding.panctlPhase q : Encoding.Statement (.panctlPhase q) := ⟨rfl, fun _ h => nomatch h⟩
theorem Encoding.nop o : Encoding.Statement (.nop o) := ⟨rfl, fun _ h => by cases h <;> decide⟩
theorem Encoding.br o : Encoding.Statement (.br o) := ⟨rfl, fun _ h => by cases h <;> decide⟩
theorem Encoding.jmp o : Encoding.Statement (.jmp o) := ⟨rfl, fun _ h => by cases h <;> decide⟩
theorem Encoding.call o : Encoding.Statement (.call o) := ⟨rfl, fun _ h => by cases h <;> decide⟩
theorem Encoding.callr o : Encoding.Statement (.callr o) := ⟨rfl, fun _ h => by cases h <;> decide⟩
theorem Encoding.ret o : Encoding.Statement (.ret o) := ⟨rfl, fun _ h => by cases h <;> decide⟩
theorem Encoding.loop o : Encoding.Statement (.loop o) := ⟨rfl, fun _ h => by cases h <;> decide⟩
theorem Encoding.lbrk o : Encoding.Statement (.lbrk o) := ⟨rfl, fun _ h => by cases h <;> decide⟩
theorem Encoding.sync o : Encoding.Statement (.sync o) := ⟨rfl, fun _ h => by cases h <;> decide⟩
theorem Encoding.yield o : Encoding.Statement (.yield o) := ⟨rfl, fun _ h => by cases h <;> decide⟩
theorem Encoding.waitx o : Encoding.Statement (.waitx o) := ⟨rfl, fun _ h => by cases h <;> decide⟩
theorem Encoding.waito o : Encoding.Statement (.waito o) := ⟨rfl, fun _ h => by cases h <;> decide⟩
theorem Encoding.waitb o : Encoding.Statement (.waitb o) := ⟨rfl, fun _ h => by cases h <;> decide⟩
theorem Encoding.fenceFull o : Encoding.Statement (.fenceFull o) := ⟨rfl, fun _ h => by cases h <;> decide⟩
theorem Encoding.fenceStore o : Encoding.Statement (.fenceStore o) := ⟨rfl, fun _ h => by cases h <;> decide⟩
theorem Encoding.fenceLoad o : Encoding.Statement (.fenceLoad o) := ⟨rfl, fun _ h => by cases h <;> decide⟩
theorem Encoding.ifence o : Encoding.Statement (.ifence o) := ⟨rfl, fun _ h => by cases h <;> decide⟩
theorem Encoding.bswp o : Encoding.Statement (.bswp o) := ⟨rfl, fun _ h => by cases h <;> decide⟩
theorem Encoding.trap o : Encoding.Statement (.trap o) := ⟨rfl, fun _ h => by cases h <;> decide⟩
theorem Encoding.rft o : Encoding.Statement (.rft o) := ⟨rfl, fun _ h => by cases h <;> decide⟩
theorem Encoding.brk o : Encoding.Statement (.brk o) := ⟨rfl, fun _ h => by cases h <;> decide⟩
theorem Encoding.halt o : Encoding.Statement (.halt o) := ⟨rfl, fun _ h => by cases h <;> decide⟩
theorem Encoding.qpost o : Encoding.Statement (.qpost o) := ⟨rfl, fun _ h => by cases h <;> decide⟩
theorem Encoding.cuienOn o : Encoding.Statement (.cuienOn o) := ⟨rfl, fun _ h => by cases h <;> decide⟩
theorem Encoding.cuienOff o : Encoding.Statement (.cuienOff o) := ⟨rfl, fun _ h => by cases h <;> decide⟩
theorem Encoding.add o : Encoding.Statement (.add o) := ⟨rfl, fun _ h => by cases h <;> decide⟩
theorem Encoding.sub o : Encoding.Statement (.sub o) := ⟨rfl, fun _ h => by cases h <;> decide⟩
theorem Encoding.mul o : Encoding.Statement (.mul o) := ⟨rfl, fun _ h => by cases h <;> decide⟩
theorem Encoding.mulh o : Encoding.Statement (.mulh o) := ⟨rfl, fun _ h => by cases h <;> decide⟩
theorem Encoding.mulhn o : Encoding.Statement (.mulhn o) := ⟨rfl, fun _ h => by cases h <;> decide⟩
theorem Encoding.div o : Encoding.Statement (.div o) := ⟨rfl, fun _ h => by cases h <;> decide⟩
theorem Encoding.divn o : Encoding.Statement (.divn o) := ⟨rfl, fun _ h => by cases h <;> decide⟩
theorem Encoding.rem o : Encoding.Statement (.rem o) := ⟨rfl, fun _ h => by cases h <;> decide⟩
theorem Encoding.remn o : Encoding.Statement (.remn o) := ⟨rfl, fun _ h => by cases h <;> decide⟩
theorem Encoding.and o : Encoding.Statement (.and o) := ⟨rfl, fun _ h => by cases h <;> decide⟩
theorem Encoding.or o : Encoding.Statement (.or o) := ⟨rfl, fun _ h => by cases h <;> decide⟩
theorem Encoding.xor o : Encoding.Statement (.xor o) := ⟨rfl, fun _ h => by cases h <;> decide⟩
theorem Encoding.andn o : Encoding.Statement (.andn o) := ⟨rfl, fun _ h => by cases h <;> decide⟩
theorem Encoding.shl o : Encoding.Statement (.shl o) := ⟨rfl, fun _ h => by cases h <;> decide⟩
theorem Encoding.shr o : Encoding.Statement (.shr o) := ⟨rfl, fun _ h => by cases h <;> decide⟩
theorem Encoding.sar o : Encoding.Statement (.sar o) := ⟨rfl, fun _ h => by cases h <;> decide⟩
theorem Encoding.rot o : Encoding.Statement (.rot o) := ⟨rfl, fun _ h => by cases h <;> decide⟩
theorem Encoding.min o : Encoding.Statement (.min o) := ⟨rfl, fun _ h => by cases h <;> decide⟩
theorem Encoding.max o : Encoding.Statement (.max o) := ⟨rfl, fun _ h => by cases h <;> decide⟩
theorem Encoding.minn o : Encoding.Statement (.minn o) := ⟨rfl, fun _ h => by cases h <;> decide⟩
theorem Encoding.maxn o : Encoding.Statement (.maxn o) := ⟨rfl, fun _ h => by cases h <;> decide⟩
theorem Encoding.clz o : Encoding.Statement (.clz o) := ⟨rfl, fun _ h => by cases h <;> decide⟩
theorem Encoding.popc o : Encoding.Statement (.popc o) := ⟨rfl, fun _ h => by cases h <;> decide⟩
theorem Encoding.bext o : Encoding.Statement (.bext o) := ⟨rfl, fun _ h => by cases h <;> decide⟩
theorem Encoding.bins o : Encoding.Statement (.bins o) := ⟨rfl, fun _ h => by cases h <;> decide⟩
theorem Encoding.sext o : Encoding.Statement (.sext o) := ⟨rfl, fun _ h => by cases h <;> decide⟩
theorem Encoding.sel o : Encoding.Statement (.sel o) := ⟨rfl, fun _ h => by cases h <;> decide⟩
theorem Encoding.mov o : Encoding.Statement (.mov o) := ⟨rfl, fun _ h => by cases h <;> decide⟩
theorem Encoding.cmp o : Encoding.Statement (.cmp o) := ⟨rfl, fun _ h => by cases h <;> decide⟩
theorem Encoding.plog o : Encoding.Statement (.plog o) := ⟨rfl, fun _ h => by cases h <;> decide⟩
theorem Encoding.fadd o : Encoding.Statement (.fadd o) := ⟨rfl, fun _ h => by cases h <;> decide⟩
theorem Encoding.fsub o : Encoding.Statement (.fsub o) := ⟨rfl, fun _ h => by cases h <;> decide⟩
theorem Encoding.fmul o : Encoding.Statement (.fmul o) := ⟨rfl, fun _ h => by cases h <;> decide⟩
theorem Encoding.ffma o : Encoding.Statement (.ffma o) := ⟨rfl, fun _ h => by cases h <;> decide⟩
theorem Encoding.ffms o : Encoding.Statement (.ffms o) := ⟨rfl, fun _ h => by cases h <;> decide⟩
theorem Encoding.fdiv o : Encoding.Statement (.fdiv o) := ⟨rfl, fun _ h => by cases h <;> decide⟩
theorem Encoding.fsqrt o : Encoding.Statement (.fsqrt o) := ⟨rfl, fun _ h => by cases h <;> decide⟩
theorem Encoding.fmin o : Encoding.Statement (.fmin o) := ⟨rfl, fun _ h => by cases h <;> decide⟩
theorem Encoding.fmax o : Encoding.Statement (.fmax o) := ⟨rfl, fun _ h => by cases h <;> decide⟩
theorem Encoding.fcmp o : Encoding.Statement (.fcmp o) := ⟨rfl, fun _ h => by cases h <;> decide⟩
theorem Encoding.fcvt o : Encoding.Statement (.fcvt o) := ⟨rfl, fun _ h => by cases h <;> decide⟩
theorem Encoding.fclass o : Encoding.Statement (.fclass o) := ⟨rfl, fun _ h => by cases h <;> decide⟩
theorem Encoding.fsgn o : Encoding.Statement (.fsgn o) := ⟨rfl, fun _ h => by cases h <;> decide⟩
theorem Encoding.ptest o : Encoding.Statement (.ptest o) := ⟨rfl, fun _ h => by cases h <;> decide⟩
theorem Encoding.porig o : Encoding.Statement (.porig o) := ⟨rfl, fun _ h => by cases h <;> decide⟩
theorem Encoding.pchk o : Encoding.Statement (.pchk o) := ⟨rfl, fun _ h => by cases h <;> decide⟩
theorem Encoding.psan o : Encoding.Statement (.psan o) := ⟨rfl, fun _ h => by cases h <;> decide⟩
theorem Encoding.chkeq o : Encoding.Statement (.chkeq o) := ⟨rfl, fun _ h => by cases h <;> decide⟩
theorem Encoding.mfs o : Encoding.Statement (.mfs o) := ⟨rfl, fun _ h => by cases h <;> decide⟩
theorem Encoding.mts o : Encoding.Statement (.mts o) := ⟨rfl, fun _ h => by cases h <;> decide⟩
theorem Encoding.mld o : Encoding.Statement (.mld o) := ⟨rfl, fun _ h => by cases h <;> decide⟩
theorem Encoding.mst o : Encoding.Statement (.mst o) := ⟨rfl, fun _ h => by cases h <;> decide⟩
theorem Encoding.amo o : Encoding.Statement (.amo o) := ⟨rfl, fun _ h => by cases h <;> decide⟩
theorem Encoding.red o : Encoding.Statement (.red o) := ⟨rfl, fun _ h => by cases h <;> decide⟩
theorem Encoding.vadd o : Encoding.Statement (.vadd o) := ⟨rfl, fun _ h => by cases h <;> decide⟩
theorem Encoding.vsub o : Encoding.Statement (.vsub o) := ⟨rfl, fun _ h => by cases h <;> decide⟩
theorem Encoding.vmul o : Encoding.Statement (.vmul o) := ⟨rfl, fun _ h => by cases h <;> decide⟩
theorem Encoding.vfma o : Encoding.Statement (.vfma o) := ⟨rfl, fun _ h => by cases h <;> decide⟩
theorem Encoding.vfms o : Encoding.Statement (.vfms o) := ⟨rfl, fun _ h => by cases h <;> decide⟩
theorem Encoding.vfnma o : Encoding.Statement (.vfnma o) := ⟨rfl, fun _ h => by cases h <;> decide⟩
theorem Encoding.vdiv o : Encoding.Statement (.vdiv o) := ⟨rfl, fun _ h => by cases h <;> decide⟩
theorem Encoding.vsqrt o : Encoding.Statement (.vsqrt o) := ⟨rfl, fun _ h => by cases h <;> decide⟩
theorem Encoding.vrcp o : Encoding.Statement (.vrcp o) := ⟨rfl, fun _ h => by cases h <;> decide⟩
theorem Encoding.vrsq o : Encoding.Statement (.vrsq o) := ⟨rfl, fun _ h => by cases h <;> decide⟩
theorem Encoding.vexp2 o : Encoding.Statement (.vexp2 o) := ⟨rfl, fun _ h => by cases h <;> decide⟩
theorem Encoding.vlog2 o : Encoding.Statement (.vlog2 o) := ⟨rfl, fun _ h => by cases h <;> decide⟩
theorem Encoding.vmin o : Encoding.Statement (.vmin o) := ⟨rfl, fun _ h => by cases h <;> decide⟩
theorem Encoding.vmax o : Encoding.Statement (.vmax o) := ⟨rfl, fun _ h => by cases h <;> decide⟩
theorem Encoding.vsgn o : Encoding.Statement (.vsgn o) := ⟨rfl, fun _ h => by cases h <;> decide⟩
theorem Encoding.vcmp o : Encoding.Statement (.vcmp o) := ⟨rfl, fun _ h => by cases h <;> decide⟩
theorem Encoding.vsel o : Encoding.Statement (.vsel o) := ⟨rfl, fun _ h => by cases h <;> decide⟩
theorem Encoding.vclass o : Encoding.Statement (.vclass o) := ⟨rfl, fun _ h => by cases h <;> decide⟩
theorem Encoding.viadd o : Encoding.Statement (.viadd o) := ⟨rfl, fun _ h => by cases h <;> decide⟩
theorem Encoding.visub o : Encoding.Statement (.visub o) := ⟨rfl, fun _ h => by cases h <;> decide⟩
theorem Encoding.vimul o : Encoding.Statement (.vimul o) := ⟨rfl, fun _ h => by cases h <;> decide⟩
theorem Encoding.vand o : Encoding.Statement (.vand o) := ⟨rfl, fun _ h => by cases h <;> decide⟩
theorem Encoding.vor o : Encoding.Statement (.vor o) := ⟨rfl, fun _ h => by cases h <;> decide⟩
theorem Encoding.vxor o : Encoding.Statement (.vxor o) := ⟨rfl, fun _ h => by cases h <;> decide⟩
theorem Encoding.vshl o : Encoding.Statement (.vshl o) := ⟨rfl, fun _ h => by cases h <;> decide⟩
theorem Encoding.vshr o : Encoding.Statement (.vshr o) := ⟨rfl, fun _ h => by cases h <;> decide⟩
theorem Encoding.vsar o : Encoding.Statement (.vsar o) := ⟨rfl, fun _ h => by cases h <;> decide⟩
theorem Encoding.vimin o : Encoding.Statement (.vimin o) := ⟨rfl, fun _ h => by cases h <;> decide⟩
theorem Encoding.vimax o : Encoding.Statement (.vimax o) := ⟨rfl, fun _ h => by cases h <;> decide⟩
theorem Encoding.vicmp o : Encoding.Statement (.vicmp o) := ⟨rfl, fun _ h => by cases h <;> decide⟩
theorem Encoding.vcvt o : Encoding.Statement (.vcvt o) := ⟨rfl, fun _ h => by cases h <;> decide⟩
theorem Encoding.vqnt o : Encoding.Statement (.vqnt o) := ⟨rfl, fun _ h => by cases h <;> decide⟩
theorem Encoding.vdqt o : Encoding.Statement (.vdqt o) := ⟨rfl, fun _ h => by cases h <;> decide⟩
theorem Encoding.vred o : Encoding.Statement (.vred o) := ⟨rfl, fun _ h => by cases h <;> decide⟩
theorem Encoding.vscan o : Encoding.Statement (.vscan o) := ⟨rfl, fun _ h => by cases h <;> decide⟩
theorem Encoding.vperm o : Encoding.Statement (.vperm o) := ⟨rfl, fun _ h => by cases h <;> decide⟩
theorem Encoding.vbcast o : Encoding.Statement (.vbcast o) := ⟨rfl, fun _ h => by cases h <;> decide⟩
theorem Encoding.vext o : Encoding.Statement (.vext o) := ⟨rfl, fun _ h => by cases h <;> decide⟩
theorem Encoding.vins o : Encoding.Statement (.vins o) := ⟨rfl, fun _ h => by cases h <;> decide⟩
theorem Encoding.mlog o : Encoding.Statement (.mlog o) := ⟨rfl, fun _ h => by cases h <;> decide⟩
theorem Encoding.mpop o : Encoding.Statement (.mpop o) := ⟨rfl, fun _ h => by cases h <;> decide⟩
theorem Encoding.mfirst o : Encoding.Statement (.mfirst o) := ⟨rfl, fun _ h => by cases h <;> decide⟩
theorem Encoding.vld o : Encoding.Statement (.vld o) := ⟨rfl, fun _ h => by cases h <;> decide⟩
theorem Encoding.vst o : Encoding.Statement (.vst o) := ⟨rfl, fun _ h => by cases h <;> decide⟩
theorem Encoding.accrd o : Encoding.Statement (.accrd o) := ⟨rfl, fun _ h => by cases h <;> decide⟩
theorem Encoding.accwr o : Encoding.Statement (.accwr o) := ⟨rfl, fun _ h => by cases h <;> decide⟩
theorem Encoding.vmov o : Encoding.Statement (.vmov o) := ⟨rfl, fun _ h => by cases h <;> decide⟩
theorem Encoding.vptest o : Encoding.Statement (.vptest o) := ⟨rfl, fun _ h => by cases h <;> decide⟩
theorem Encoding.vpchk o : Encoding.Statement (.vpchk o) := ⟨rfl, fun _ h => by cases h <;> decide⟩
theorem Encoding.vpsan o : Encoding.Statement (.vpsan o) := ⟨rfl, fun _ h => by cases h <;> decide⟩
theorem Encoding.mma o : Encoding.Statement (.mma o) := ⟨rfl, fun _ h => by cases h <;> decide⟩
theorem Encoding.mmag o : Encoding.Statement (.mmag o) := ⟨rfl, fun _ h => by cases h <;> decide⟩
theorem Encoding.mconv o : Encoding.Statement (.mconv o) := ⟨rfl, fun _ h => by cases h <;> decide⟩
theorem Encoding.gset o : Encoding.Statement (.gset o) := ⟨rfl, fun _ h => by cases h <;> decide⟩
theorem Encoding.cset o : Encoding.Statement (.cset o) := ⟨rfl, fun _ h => by cases h <;> decide⟩
theorem Encoding.wld o : Encoding.Statement (.wld o) := ⟨rfl, fun _ h => by cases h <;> decide⟩
theorem Encoding.accz o : Encoding.Statement (.accz o) := ⟨rfl, fun _ h => by cases h <;> decide⟩
theorem Encoding.accst o : Encoding.Statement (.accst o) := ⟨rfl, fun _ h => by cases h <;> decide⟩
theorem Encoding.accld o : Encoding.Statement (.accld o) := ⟨rfl, fun _ h => by cases h <;> decide⟩
theorem Encoding.lend o : Encoding.Statement (.lend o) := ⟨rfl, fun _ h => by cases h <;> decide⟩
theorem Encoding.lendRet o : Encoding.Statement (.lendRet o) := ⟨rfl, fun _ h => by cases h <;> decide⟩
theorem Encoding.mwait o : Encoding.Statement (.mwait o) := ⟨rfl, fun _ h => by cases h <;> decide⟩
theorem Encoding.ewr o : Encoding.Statement (.ewr o) := ⟨rfl, fun _ h => by cases h <;> decide⟩
theorem Encoding.erd o : Encoding.Statement (.erd o) := ⟨rfl, fun _ h => by cases h <;> decide⟩
theorem Encoding.egoCopy o : Encoding.Statement (.egoCopy o) := ⟨rfl, fun _ h => by cases h <;> decide⟩
theorem Encoding.egoMerge o : Encoding.Statement (.egoMerge o) := ⟨rfl, fun _ h => by cases h <;> decide⟩
theorem Encoding.egoInter o : Encoding.Statement (.egoInter o) := ⟨rfl, fun _ h => by cases h <;> decide⟩
theorem Encoding.egoExpand o : Encoding.Statement (.egoExpand o) := ⟨rfl, fun _ h => by cases h <;> decide⟩
theorem Encoding.egoHist o : Encoding.Statement (.egoHist o) := ⟨rfl, fun _ h => by cases h <;> decide⟩
theorem Encoding.egoPsum o : Encoding.Statement (.egoPsum o) := ⟨rfl, fun _ h => by cases h <;> decide⟩
theorem Encoding.egoHbuild o : Encoding.Statement (.egoHbuild o) := ⟨rfl, fun _ h => by cases h <;> decide⟩
theorem Encoding.egoHprobe o : Encoding.Statement (.egoHprobe o) := ⟨rfl, fun _ h => by cases h <;> decide⟩
theorem Encoding.egoRules o : Encoding.Statement (.egoRules o) := ⟨rfl, fun _ h => by cases h <;> decide⟩
theorem Encoding.egoNnz o : Encoding.Statement (.egoNnz o) := ⟨rfl, fun _ h => by cases h <;> decide⟩
theorem Encoding.egoCload o : Encoding.Statement (.egoCload o) := ⟨rfl, fun _ h => by cases h <;> decide⟩
theorem Encoding.egoEval o : Encoding.Statement (.egoEval o) := ⟨rfl, fun _ h => by cases h <;> decide⟩
theorem Encoding.egoPupd o : Encoding.Statement (.egoPupd o) := ⟨rfl, fun _ h => by cases h <;> decide⟩
theorem Encoding.egoPflip o : Encoding.Statement (.egoPflip o) := ⟨rfl, fun _ h => by cases h <;> decide⟩
theorem Encoding.egoCstat o : Encoding.Statement (.egoCstat o) := ⟨rfl, fun _ h => by cases h <;> decide⟩
theorem Encoding.egoLsend o : Encoding.Statement (.egoLsend o) := ⟨rfl, fun _ h => by cases h <;> decide⟩
theorem Encoding.egoLrecv o : Encoding.Statement (.egoLrecv o) := ⟨rfl, fun _ h => by cases h <;> decide⟩
theorem Encoding.egoLradd o : Encoding.Statement (.egoLradd o) := ⟨rfl, fun _ h => by cases h <;> decide⟩
theorem Encoding.ownGive o : Encoding.Statement (.ownGive o) := ⟨rfl, fun _ h => by cases h <;> decide⟩
theorem Encoding.ownTake o : Encoding.Statement (.ownTake o) := ⟨rfl, fun _ h => by cases h <;> decide⟩
theorem Encoding.xsend o : Encoding.Statement (.xsend o) := ⟨rfl, fun _ h => by cases h <;> decide⟩
theorem Encoding.xrecv o : Encoding.Statement (.xrecv o) := ⟨rfl, fun _ h => by cases h <;> decide⟩
theorem Encoding.tdef o : Encoding.Statement (.tdef o) := ⟨rfl, fun _ h => by cases h <;> decide⟩
theorem Encoding.trd o : Encoding.Statement (.trd o) := ⟨rfl, fun _ h => by cases h <;> decide⟩
theorem Encoding.fmtset o : Encoding.Statement (.fmtset o) := ⟨rfl, fun _ h => by cases h <;> decide⟩
theorem Encoding.spat o : Encoding.Statement (.spat o) := ⟨rfl, fun _ h => by cases h <;> decide⟩
theorem Encoding.srst o : Encoding.Statement (.srst o) := ⟨rfl, fun _ h => by cases h <;> decide⟩
theorem Encoding.srstClr o : Encoding.Statement (.srstClr o) := ⟨rfl, fun _ h => by cases h <;> decide⟩
theorem Encoding.bwph o : Encoding.Statement (.bwph o) := ⟨rfl, fun _ h => by cases h <;> decide⟩
theorem Encoding.bpwrRetain o : Encoding.Statement (.bpwrRetain o) := ⟨rfl, fun _ h => by cases h <;> decide⟩
theorem Encoding.bpwrWake o : Encoding.Statement (.bpwrWake o) := ⟨rfl, fun _ h => by cases h <;> decide⟩
theorem Encoding.bufferWriteTakesEffect k : Encoding.Statement (.bufferWriteTakesEffect k) := ⟨rfl, fun _ h => nomatch h⟩
theorem Encoding.arbiterGrant : Encoding.Statement (.arbiterGrant) := ⟨rfl, fun _ h => nomatch h⟩
theorem Encoding.hardStop : Encoding.Statement (.hardStop) := ⟨rfl, fun _ h => nomatch h⟩
theorem Encoding.preemptionRequest : Encoding.Statement (.preemptionRequest) := ⟨rfl, fun _ h => nomatch h⟩
theorem Encoding.fullPreemption : Encoding.Statement (.fullPreemption) := ⟨rfl, fun _ h => nomatch h⟩
theorem Encoding.patrolScrub : Encoding.Statement (.patrolScrub) := ⟨rfl, fun _ h => nomatch h⟩
theorem Encoding.originEntryFill : Encoding.Statement (.originEntryFill) := ⟨rfl, fun _ h => nomatch h⟩
theorem Encoding.hubBwphaseApply : Encoding.Statement (.hubBwphaseApply) := ⟨rfl, fun _ h => nomatch h⟩
theorem Encoding.uncontainedFault : Encoding.Statement (.uncontainedFault) := ⟨rfl, fun _ h => nomatch h⟩
theorem Encoding.qappend : Encoding.Statement (.qappend) := ⟨rfl, fun _ h => nomatch h⟩
theorem Encoding.cfgrd : Encoding.Statement (.cfgrd) := ⟨rfl, fun _ h => nomatch h⟩
theorem Encoding.cfgwr : Encoding.Statement (.cfgwr) := ⟨rfl, fun _ h => nomatch h⟩
theorem Encoding.memrd : Encoding.Statement (.memrd) := ⟨rfl, fun _ h => nomatch h⟩
theorem Encoding.memwr : Encoding.Statement (.memwr) := ⟨rfl, fun _ h => nomatch h⟩
theorem Encoding.fabricPanctl : Encoding.Statement (.fabricPanctl) := ⟨rfl, fun _ h => nomatch h⟩
theorem Encoding.ctxctlWrite : Encoding.Statement (.ctxctlWrite) := ⟨rfl, fun _ h => nomatch h⟩
theorem Encoding.faultctlResume : Encoding.Statement (.faultctlResume) := ⟨rfl, fun _ h => nomatch h⟩
theorem Encoding.faultctlEnd : Encoding.Statement (.faultctlEnd) := ⟨rfl, fun _ h => nomatch h⟩
theorem Encoding.qctlBind : Encoding.Statement (.qctlBind) := ⟨rfl, fun _ h => nomatch h⟩
theorem Encoding.qctlStart : Encoding.Statement (.qctlStart) := ⟨rfl, fun _ h => nomatch h⟩
theorem Encoding.qctlHold : Encoding.Statement (.qctlHold) := ⟨rfl, fun _ h => nomatch h⟩
theorem Encoding.qctlRelease : Encoding.Statement (.qctlRelease) := ⟨rfl, fun _ h => nomatch h⟩
theorem Encoding.qctlUnbind : Encoding.Statement (.qctlUnbind) := ⟨rfl, fun _ h => nomatch h⟩
theorem Encoding.pwrctlWrite : Encoding.Statement (.pwrctlWrite) := ⟨rfl, fun _ h => nomatch h⟩
theorem Encoding.attctlStart : Encoding.Statement (.attctlStart) := ⟨rfl, fun _ h => nomatch h⟩
theorem Encoding.attestationReportDone : Encoding.Statement (.attestationReportDone) := ⟨rfl, fun _ h => nomatch h⟩
theorem Encoding.kemctWrite : Encoding.Statement (.kemctWrite) := ⟨rfl, fun _ h => nomatch h⟩
theorem Encoding.keyctlInstall : Encoding.Statement (.keyctlInstall) := ⟨rfl, fun _ h => nomatch h⟩
theorem Encoding.keyctlErase : Encoding.Statement (.keyctlErase) := ⟨rfl, fun _ h => nomatch h⟩
theorem Encoding.nodeidWrite : Encoding.Statement (.nodeidWrite) := ⟨rfl, fun _ h => nomatch h⟩
theorem Encoding.mgmtStatusRead : Encoding.Statement (.mgmtStatusRead) := ⟨rfl, fun _ h => nomatch h⟩
theorem Encoding.debugClaim : Encoding.Statement (.debugClaim) := ⟨rfl, fun _ h => nomatch h⟩
theorem Encoding.singleStepArm : Encoding.Statement (.singleStepArm) := ⟨rfl, fun _ h => nomatch h⟩
theorem Encoding.hardStopRequest : Encoding.Statement (.hardStopRequest) := ⟨rfl, fun _ h => nomatch h⟩
theorem Encoding.mgmtParameterSet : Encoding.Statement (.mgmtParameterSet) := ⟨rfl, fun _ h => nomatch h⟩
theorem Encoding.resetRelease : Encoding.Statement (.resetRelease) := ⟨rfl, fun _ h => nomatch h⟩
theorem Encoding.linkTrainingDone : Encoding.Statement (.linkTrainingDone) := ⟨rfl, fun _ h => nomatch h⟩
theorem Encoding.coreReturnedToService : Encoding.Statement (.coreReturnedToService) := ⟨rfl, fun _ h => nomatch h⟩
theorem Encoding.boundaryScanAccess : Encoding.Statement (.boundaryScanAccess) := ⟨rfl, fun _ h => nomatch h⟩

end Sys2Proof.Laws
end

