-- ==== Sys2Proof/Laws/Tab.lean ====
section
/-! SUPPORT. Reading, writing and the canonical form of sparse tables and of memory. -/

namespace Sys2Proof.Machine

variable {α : Type}

@[simp] theorem Tab.get_nil (d : α) (i : Nat) : Tab.get d [] i = d := rfl

/-- A key set reads as what it was set to. -/
@[simp] theorem Tab.get_set_self (d : α) (t : Tab α) (i : Nat) (v : α) : Tab.get d (Tab.set t i v) i = v := by
  induction t with
  | nil => simp [Tab.set, Tab.get]
  | cons e t ih =>
    obtain ⟨k, x⟩ := e
    simp only [Tab.set]
    split
    · simp [Tab.get]
    · split
      · simp [Tab.get]
      · next h => simp [Tab.get, h, ih]

/-- Setting a key leaves every other key alone. -/
theorem Tab.get_set_ne (d : α) (t : Tab α) (i j : Nat) (v : α) (h : j ≠ i) :
    Tab.get d (Tab.set t i v) j = Tab.get d t j := by
  induction t with
  | nil => simp [Tab.set, Tab.get, h]
  | cons e t ih =>
    obtain ⟨k, x⟩ := e
    simp only [Tab.set]
    split
    · simp [Tab.get, h]
    · split
      · next hik => subst hik; simp [Tab.get, h]
      · simp [Tab.get, ih]

/-- Keys that rise strictly from a bound are all above it, so a key at or below it is not listed. -/
theorem Tab.get_of_wfFrom [DecidableEq α] (d : α) (t : Tab α) (l i : Nat) (hw : Tab.wfFrom d (some l) t = true) (hi : i ≤ l) :
    Tab.get d t i = d := by
  induction t generalizing l with
  | nil => rfl
  | cons e t ih =>
    obtain ⟨k, x⟩ := e
    simp only [Tab.wfFrom, Bool.and_eq_true, decide_eq_true_eq] at hw
    have : i ≠ k := by omega
    simp only [Tab.get, this, if_false]
    exact ih k hw.2 (by omega)

/-- In canonical form a removed key reads as an unlisted one. -/
theorem Tab.get_erase_self [DecidableEq α] (d : α) (lo : Option Nat) (t : Tab α) (i : Nat) (hw : Tab.wfFrom d lo t = true) :
    Tab.get d (Tab.erase t i) i = d := by
  induction t generalizing lo with
  | nil => rfl
  | cons e t ih =>
    obtain ⟨k, x⟩ := e
    simp only [Tab.wfFrom, Bool.and_eq_true, decide_eq_true_eq] at hw
    simp only [Tab.erase]
    split
    · next h => subst h; exact Tab.get_of_wfFrom d t i i hw.2 (Nat.le_refl i)
    · next h => simp only [Tab.get, h, if_false]; exact ih _ hw.2

/-- Removing a key leaves every other key alone. -/
theorem Tab.get_erase_ne (d : α) (t : Tab α) (i j : Nat) (h : j ≠ i) : Tab.get d (Tab.erase t i) j = Tab.get d t j := by
  induction t with
  | nil => rfl
  | cons e t ih =>
    obtain ⟨k, x⟩ := e
    simp only [Tab.erase]
    split
    · next hik => subst hik; simp [Tab.get, h]
    · simp [Tab.get, ih]

/-- A bound below a bound. -/
theorem Tab.wfFrom_weaken [DecidableEq α] (d : α) (t : Tab α) (l m : Nat) (h : l ≤ m) (hw : Tab.wfFrom d (some m) t = true) :
    Tab.wfFrom d (some l) t = true := by
  cases t with
  | nil => rfl
  | cons e t =>
    simp only [Tab.wfFrom, Bool.and_eq_true, decide_eq_true_eq] at hw ⊢
    exact ⟨⟨by omega, hw.1.2⟩, hw.2⟩

/-- Without a bound. -/
theorem Tab.wfFrom_none [DecidableEq α] (d : α) (t : Tab α) (lo : Option Nat) (hw : Tab.wfFrom d lo t = true) :
    Tab.wfFrom d none t = true := by
  cases t with
  | nil => rfl
  | cons e t =>
    simp only [Tab.wfFrom, Bool.and_eq_true] at hw ⊢
    exact ⟨⟨trivial, hw.1.2⟩, hw.2⟩

/-- Setting a key to another value than the unlisted one keeps the canonical form. -/
theorem Tab.wfFrom_set [DecidableEq α] (d : α) (t : Tab α) (lo : Option Nat) (i : Nat) (v : α) (hv : v ≠ d)
    (hlo : ∀ l, lo = some l → l < i) (hw : Tab.wfFrom d lo t = true) : Tab.wfFrom d lo (Tab.set t i v) = true := by
  induction t generalizing lo with
  | nil =>
    cases lo with
    | none => simp [Tab.set, Tab.wfFrom, hv]
    | some l => simp [Tab.set, Tab.wfFrom, hv, hlo l rfl]
  | cons e t ih =>
    obtain ⟨k, x⟩ := e
    simp only [Tab.wfFrom, Bool.and_eq_true, decide_eq_true_eq] at hw
    simp only [Tab.set]
    split
    · next h => cases lo <;> simp [Tab.wfFrom, hv, h, hw.1.2, hw.2, hlo]
    · split
      · next h => subst h; cases lo <;> simp [Tab.wfFrom, hv, hw.2, hlo]
      · next h1 h2 =>
        have := ih (some k) (fun l hl => by cases hl; omega) hw.2
        simp [Tab.wfFrom, hw.1.1, hw.1.2, this]

/-- Removing a key keeps the canonical form. -/
theorem Tab.wfFrom_erase [DecidableEq α] (d : α) (t : Tab α) (lo : Option Nat) (i : Nat) (hw : Tab.wfFrom d lo t = true) :
    Tab.wfFrom d lo (Tab.erase t i) = true := by
  induction t generalizing lo with
  | nil => rfl
  | cons e t ih =>
    obtain ⟨k, x⟩ := e
    have hw' := hw
    simp only [Tab.wfFrom, Bool.and_eq_true, decide_eq_true_eq] at hw
    simp only [Tab.erase]
    split
    · cases lo with
      | none => exact Tab.wfFrom_none d t (some k) hw.2
      | some l => exact Tab.wfFrom_weaken d t l k (by have := hw.1.1; simp at this; omega) hw.2
    · simp [Tab.wfFrom, hw.1.1, hw.1.2, ih (some k) hw.2]

/-- A write keeps the canonical form. -/
theorem Tab.wf_put [DecidableEq α] (d : α) (t : Tab α) (i : Nat) (v : α) (hw : Tab.wf d t = true) :
    Tab.wf d (Tab.put d t i v) = true := by
  unfold Tab.put
  split
  · exact Tab.wfFrom_erase d t none i hw
  · next h => exact Tab.wfFrom_set d t none i v h (fun l hl => nomatch hl) hw

/-- Reading the key written. -/
theorem Tab.get_put_self [DecidableEq α] (d : α) (t : Tab α) (i : Nat) (v : α) (hw : Tab.wf d t = true) :
    Tab.get d (Tab.put d t i v) i = v := by
  unfold Tab.put
  split
  · next h => rw [h]; exact Tab.get_erase_self d none t i hw
  · simp

/-- Reading another key than the one written. -/
theorem Tab.get_put_ne [DecidableEq α] (d : α) (t : Tab α) (i j : Nat) (v : α) (h : j ≠ i) :
    Tab.get d (Tab.put d t i v) j = Tab.get d t j := by
  unfold Tab.put
  split
  · exact Tab.get_erase_ne d t i j h
  · exact Tab.get_set_ne d t i j v h

/-! ## Memory -/

/-- Writing a byte keeps the canonical form. -/
theorem Memory.wf_write (m : Memory) (a : Nat) (b : Byte) (h : m.wf = true) : (m.write a b).wf = true :=
  Tab.wf_put 0 m a b h

/-- The byte written reads back. -/
theorem Memory.byte_write_self (m : Memory) (a : Nat) (b : Byte) (h : m.wf = true) : (m.write a b).byte a = b :=
  Tab.get_put_self 0 m a b h

/-- Every other byte stays. -/
theorem Memory.byte_write_ne (m : Memory) (a x : Nat) (b : Byte) (h : x ≠ a) : (m.write a b).byte x = m.byte x :=
  Tab.get_put_ne 0 m a x b h

/-- Writing bytes keeps the canonical form. -/
theorem Memory.wf_writeAll (m : Memory) (a : Nat) (bs : List Byte) (h : m.wf = true) : (m.writeAll a bs).wf = true := by
  induction bs generalizing m a with
  | nil => exact h
  | cons b bs ih => exact ih (m.write a b) (a + 1) (m.wf_write a b h)

/-- Bytes outside those written stay. -/
theorem Memory.byte_writeAll_outside (m : Memory) (a x : Nat) (bs : List Byte) (h : x < a ∨ a + bs.length ≤ x) :
    (m.writeAll a bs).byte x = m.byte x := by
  induction bs generalizing m a with
  | nil => rfl
  | cons b bs ih =>
    simp only [List.length_cons] at h
    rw [Memory.writeAll, ih (m.write a b) (a + 1) (by omega), Memory.byte_write_ne m a x b (by omega)]

/-- A byte written reads back. -/
theorem Memory.byte_writeAll_inside (m : Memory) (a : Nat) (bs : List Byte) (n : Nat) (hm : m.wf = true) (h : n < bs.length) :
    (m.writeAll a bs).byte (a + n) = bs[n] := by
  induction bs generalizing m a n with
  | nil => simp at h
  | cons b bs ih =>
    cases n with
    | zero =>
      rw [Memory.writeAll, Memory.byte_writeAll_outside (m.write a b) (a + 1) (a + 0) bs (by omega)]
      exact Memory.byte_write_self m a b hm
    | succ n =>
      have := ih (m.write a b) (a + 1) n (m.wf_write a b hm) (by simpa using h)
      rw [Memory.writeAll, show a + (n + 1) = a + 1 + n by omega, this]
      simp

/-- What is read has the length asked for. -/
@[simp] theorem Memory.length_read (m : Memory) (a n : Nat) : (m.read a n).length = n := by
  induction n generalizing a with
  | zero => rfl
  | succ n ih => simp [Memory.read, ih]

/-- Device memory after reset is in canonical form. -/
theorem reset_mem_wf : State.reset.mem.wf = true := rfl

end Sys2Proof.Machine
end

