-- ==== Sys2Proof/Laws/State.lean ====
section
/-! SUPPORT. What the shared updates of the state leave alone, field by field, and what a changed kernel reads as. -/

namespace Sys2Proof.Machine

/-! ## `State.modKern` changes `kerns` alone -/

@[simp] theorem State.modKern_issue (s : State) (k : Nat) (f : Kern → Kern) : (s.modKern k f).issue = s.issue := rfl
@[simp] theorem State.modKern_cores (s : State) (k : Nat) (f : Kern → Kern) : (s.modKern k f).cores = s.cores := rfl
@[simp] theorem State.modKern_doms (s : State) (k : Nat) (f : Kern → Kern) : (s.modKern k f).doms = s.doms := rfl
@[simp] theorem State.modKern_sites (s : State) (k : Nat) (f : Kern → Kern) : (s.modKern k f).sites = s.sites := rfl
@[simp] theorem State.modKern_launches (s : State) (k : Nat) (f : Kern → Kern) : (s.modKern k f).launches = s.launches := rfl
@[simp] theorem State.modKern_queues (s : State) (k : Nat) (f : Kern → Kern) : (s.modKern k f).queues = s.queues := rfl
@[simp] theorem State.modKern_ctxs (s : State) (k : Nat) (f : Kern → Kern) : (s.modKern k f).ctxs = s.ctxs := rfl
@[simp] theorem State.modKern_objs (s : State) (k : Nat) (f : Kern → Kern) : (s.modKern k f).objs = s.objs := rfl
@[simp] theorem State.modKern_pans (s : State) (k : Nat) (f : Kern → Kern) : (s.modKern k f).pans = s.pans := rfl
@[simp] theorem State.modKern_mem (s : State) (k : Nat) (f : Kern → Kern) : (s.modKern k f).mem = s.mem := rfl
@[simp] theorem State.modKern_marks (s : State) (k : Nat) (f : Kern → Kern) : (s.modKern k f).marks = s.marks := rfl
@[simp] theorem State.modKern_ue (s : State) (k : Nat) (f : Kern → Kern) : (s.modKern k f).ue = s.ue := rfl
@[simp] theorem State.modKern_ce (s : State) (k : Nat) (f : Kern → Kern) : (s.modKern k f).ce = s.ce := rfl
@[simp] theorem State.modKern_encTag (s : State) (k : Nat) (f : Kern → Kern) : (s.modKern k f).encTag = s.encTag := rfl
@[simp] theorem State.modKern_lines (s : State) (k : Nat) (f : Kern → Kern) : (s.modKern k f).lines = s.lines := rfl
@[simp] theorem State.modKern_ingress (s : State) (k : Nat) (f : Kern → Kern) : (s.modKern k f).ingress = s.ingress := rfl
@[simp] theorem State.modKern_tlb (s : State) (k : Nat) (f : Kern → Kern) : (s.modKern k f).tlb = s.tlb := rfl
@[simp] theorem State.modKern_emiss (s : State) (k : Nat) (f : Kern → Kern) : (s.modKern k f).emiss = s.emiss := rfl
@[simp] theorem State.modKern_rfaults (s : State) (k : Nat) (f : Kern → Kern) : (s.modKern k f).rfaults = s.rfaults := rfl
@[simp] theorem State.modKern_ufaults (s : State) (k : Nat) (f : Kern → Kern) : (s.modKern k f).ufaults = s.ufaults := rfl
@[simp] theorem State.modKern_fills (s : State) (k : Nat) (f : Kern → Kern) : (s.modKern k f).fills = s.fills := rfl
@[simp] theorem State.modKern_links (s : State) (k : Nat) (f : Kern → Kern) : (s.modKern k f).links = s.links := rfl
@[simp] theorem State.modKern_recvs (s : State) (k : Nat) (f : Kern → Kern) : (s.modKern k f).recvs = s.recvs := rfl
@[simp] theorem State.modKern_keyPos (s : State) (k : Nat) (f : Kern → Kern) : (s.modKern k f).keyPos = s.keyPos := rfl
@[simp] theorem State.modKern_hub (s : State) (k : Nat) (f : Kern → Kern) : (s.modKern k f).hub = s.hub := rfl
@[simp] theorem State.modKern_reqs (s : State) (k : Nat) (f : Kern → Kern) : (s.modKern k f).reqs = s.reqs := rfl
@[simp] theorem State.modKern_putsHeld (s : State) (k : Nat) (f : Kern → Kern) : (s.modKern k f).putsHeld = s.putsHeld := rfl
@[simp] theorem State.modKern_hostIn (s : State) (k : Nat) (f : Kern → Kern) : (s.modKern k f).hostIn = s.hostIn := rfl
@[simp] theorem State.modKern_mgmtIn (s : State) (k : Nat) (f : Kern → Kern) : (s.modKern k f).mgmtIn = s.mgmtIn := rfl
@[simp] theorem State.modKern_soft (s : State) (k : Nat) (f : Kern → Kern) : (s.modKern k f).soft = s.soft := rfl
@[simp] theorem State.modKern_out (s : State) (k : Nat) (f : Kern → Kern) : (s.modKern k f).out = s.out := rfl
@[simp] theorem State.modKern_script (s : State) (k : Nat) (f : Kern → Kern) : (s.modKern k f).script = s.script := rfl
@[simp] theorem State.modKern_choices (s : State) (k : Nat) (f : Kern → Kern) : (s.modKern k f).choices = s.choices := rfl

/-! ## `State.modCore` changes `cores` alone -/

@[simp] theorem State.modCore_issue (s : State) (c : Nat) (f : Core → Core) : (s.modCore c f).issue = s.issue := rfl
@[simp] theorem State.modCore_kerns (s : State) (c : Nat) (f : Core → Core) : (s.modCore c f).kerns = s.kerns := rfl
@[simp] theorem State.modCore_doms (s : State) (c : Nat) (f : Core → Core) : (s.modCore c f).doms = s.doms := rfl
@[simp] theorem State.modCore_sites (s : State) (c : Nat) (f : Core → Core) : (s.modCore c f).sites = s.sites := rfl
@[simp] theorem State.modCore_launches (s : State) (c : Nat) (f : Core → Core) : (s.modCore c f).launches = s.launches := rfl
@[simp] theorem State.modCore_queues (s : State) (c : Nat) (f : Core → Core) : (s.modCore c f).queues = s.queues := rfl
@[simp] theorem State.modCore_ctxs (s : State) (c : Nat) (f : Core → Core) : (s.modCore c f).ctxs = s.ctxs := rfl
@[simp] theorem State.modCore_objs (s : State) (c : Nat) (f : Core → Core) : (s.modCore c f).objs = s.objs := rfl
@[simp] theorem State.modCore_pans (s : State) (c : Nat) (f : Core → Core) : (s.modCore c f).pans = s.pans := rfl
@[simp] theorem State.modCore_mem (s : State) (c : Nat) (f : Core → Core) : (s.modCore c f).mem = s.mem := rfl
@[simp] theorem State.modCore_marks (s : State) (c : Nat) (f : Core → Core) : (s.modCore c f).marks = s.marks := rfl
@[simp] theorem State.modCore_ue (s : State) (c : Nat) (f : Core → Core) : (s.modCore c f).ue = s.ue := rfl
@[simp] theorem State.modCore_ce (s : State) (c : Nat) (f : Core → Core) : (s.modCore c f).ce = s.ce := rfl
@[simp] theorem State.modCore_encTag (s : State) (c : Nat) (f : Core → Core) : (s.modCore c f).encTag = s.encTag := rfl
@[simp] theorem State.modCore_lines (s : State) (c : Nat) (f : Core → Core) : (s.modCore c f).lines = s.lines := rfl
@[simp] theorem State.modCore_ingress (s : State) (c : Nat) (f : Core → Core) : (s.modCore c f).ingress = s.ingress := rfl
@[simp] theorem State.modCore_tlb (s : State) (c : Nat) (f : Core → Core) : (s.modCore c f).tlb = s.tlb := rfl
@[simp] theorem State.modCore_emiss (s : State) (c : Nat) (f : Core → Core) : (s.modCore c f).emiss = s.emiss := rfl
@[simp] theorem State.modCore_rfaults (s : State) (c : Nat) (f : Core → Core) : (s.modCore c f).rfaults = s.rfaults := rfl
@[simp] theorem State.modCore_ufaults (s : State) (c : Nat) (f : Core → Core) : (s.modCore c f).ufaults = s.ufaults := rfl
@[simp] theorem State.modCore_fills (s : State) (c : Nat) (f : Core → Core) : (s.modCore c f).fills = s.fills := rfl
@[simp] theorem State.modCore_links (s : State) (c : Nat) (f : Core → Core) : (s.modCore c f).links = s.links := rfl
@[simp] theorem State.modCore_recvs (s : State) (c : Nat) (f : Core → Core) : (s.modCore c f).recvs = s.recvs := rfl
@[simp] theorem State.modCore_keyPos (s : State) (c : Nat) (f : Core → Core) : (s.modCore c f).keyPos = s.keyPos := rfl
@[simp] theorem State.modCore_hub (s : State) (c : Nat) (f : Core → Core) : (s.modCore c f).hub = s.hub := rfl
@[simp] theorem State.modCore_reqs (s : State) (c : Nat) (f : Core → Core) : (s.modCore c f).reqs = s.reqs := rfl
@[simp] theorem State.modCore_putsHeld (s : State) (c : Nat) (f : Core → Core) : (s.modCore c f).putsHeld = s.putsHeld := rfl
@[simp] theorem State.modCore_hostIn (s : State) (c : Nat) (f : Core → Core) : (s.modCore c f).hostIn = s.hostIn := rfl
@[simp] theorem State.modCore_mgmtIn (s : State) (c : Nat) (f : Core → Core) : (s.modCore c f).mgmtIn = s.mgmtIn := rfl
@[simp] theorem State.modCore_soft (s : State) (c : Nat) (f : Core → Core) : (s.modCore c f).soft = s.soft := rfl
@[simp] theorem State.modCore_out (s : State) (c : Nat) (f : Core → Core) : (s.modCore c f).out = s.out := rfl
@[simp] theorem State.modCore_script (s : State) (c : Nat) (f : Core → Core) : (s.modCore c f).script = s.script := rfl
@[simp] theorem State.modCore_choices (s : State) (c : Nat) (f : Core → Core) : (s.modCore c f).choices = s.choices := rfl

/-! ## `State.modCtx` changes `ctxs` alone -/

@[simp] theorem State.modCtx_issue (s : State) (c : Nat) (f : Ctx → Ctx) : (s.modCtx c f).issue = s.issue := rfl
@[simp] theorem State.modCtx_kerns (s : State) (c : Nat) (f : Ctx → Ctx) : (s.modCtx c f).kerns = s.kerns := rfl
@[simp] theorem State.modCtx_cores (s : State) (c : Nat) (f : Ctx → Ctx) : (s.modCtx c f).cores = s.cores := rfl
@[simp] theorem State.modCtx_doms (s : State) (c : Nat) (f : Ctx → Ctx) : (s.modCtx c f).doms = s.doms := rfl
@[simp] theorem State.modCtx_sites (s : State) (c : Nat) (f : Ctx → Ctx) : (s.modCtx c f).sites = s.sites := rfl
@[simp] theorem State.modCtx_launches (s : State) (c : Nat) (f : Ctx → Ctx) : (s.modCtx c f).launches = s.launches := rfl
@[simp] theorem State.modCtx_queues (s : State) (c : Nat) (f : Ctx → Ctx) : (s.modCtx c f).queues = s.queues := rfl
@[simp] theorem State.modCtx_objs (s : State) (c : Nat) (f : Ctx → Ctx) : (s.modCtx c f).objs = s.objs := rfl
@[simp] theorem State.modCtx_pans (s : State) (c : Nat) (f : Ctx → Ctx) : (s.modCtx c f).pans = s.pans := rfl
@[simp] theorem State.modCtx_mem (s : State) (c : Nat) (f : Ctx → Ctx) : (s.modCtx c f).mem = s.mem := rfl
@[simp] theorem State.modCtx_marks (s : State) (c : Nat) (f : Ctx → Ctx) : (s.modCtx c f).marks = s.marks := rfl
@[simp] theorem State.modCtx_ue (s : State) (c : Nat) (f : Ctx → Ctx) : (s.modCtx c f).ue = s.ue := rfl
@[simp] theorem State.modCtx_ce (s : State) (c : Nat) (f : Ctx → Ctx) : (s.modCtx c f).ce = s.ce := rfl
@[simp] theorem State.modCtx_encTag (s : State) (c : Nat) (f : Ctx → Ctx) : (s.modCtx c f).encTag = s.encTag := rfl
@[simp] theorem State.modCtx_lines (s : State) (c : Nat) (f : Ctx → Ctx) : (s.modCtx c f).lines = s.lines := rfl
@[simp] theorem State.modCtx_ingress (s : State) (c : Nat) (f : Ctx → Ctx) : (s.modCtx c f).ingress = s.ingress := rfl
@[simp] theorem State.modCtx_tlb (s : State) (c : Nat) (f : Ctx → Ctx) : (s.modCtx c f).tlb = s.tlb := rfl
@[simp] theorem State.modCtx_emiss (s : State) (c : Nat) (f : Ctx → Ctx) : (s.modCtx c f).emiss = s.emiss := rfl
@[simp] theorem State.modCtx_rfaults (s : State) (c : Nat) (f : Ctx → Ctx) : (s.modCtx c f).rfaults = s.rfaults := rfl
@[simp] theorem State.modCtx_ufaults (s : State) (c : Nat) (f : Ctx → Ctx) : (s.modCtx c f).ufaults = s.ufaults := rfl
@[simp] theorem State.modCtx_fills (s : State) (c : Nat) (f : Ctx → Ctx) : (s.modCtx c f).fills = s.fills := rfl
@[simp] theorem State.modCtx_links (s : State) (c : Nat) (f : Ctx → Ctx) : (s.modCtx c f).links = s.links := rfl
@[simp] theorem State.modCtx_recvs (s : State) (c : Nat) (f : Ctx → Ctx) : (s.modCtx c f).recvs = s.recvs := rfl
@[simp] theorem State.modCtx_keyPos (s : State) (c : Nat) (f : Ctx → Ctx) : (s.modCtx c f).keyPos = s.keyPos := rfl
@[simp] theorem State.modCtx_hub (s : State) (c : Nat) (f : Ctx → Ctx) : (s.modCtx c f).hub = s.hub := rfl
@[simp] theorem State.modCtx_reqs (s : State) (c : Nat) (f : Ctx → Ctx) : (s.modCtx c f).reqs = s.reqs := rfl
@[simp] theorem State.modCtx_putsHeld (s : State) (c : Nat) (f : Ctx → Ctx) : (s.modCtx c f).putsHeld = s.putsHeld := rfl
@[simp] theorem State.modCtx_hostIn (s : State) (c : Nat) (f : Ctx → Ctx) : (s.modCtx c f).hostIn = s.hostIn := rfl
@[simp] theorem State.modCtx_mgmtIn (s : State) (c : Nat) (f : Ctx → Ctx) : (s.modCtx c f).mgmtIn = s.mgmtIn := rfl
@[simp] theorem State.modCtx_soft (s : State) (c : Nat) (f : Ctx → Ctx) : (s.modCtx c f).soft = s.soft := rfl
@[simp] theorem State.modCtx_out (s : State) (c : Nat) (f : Ctx → Ctx) : (s.modCtx c f).out = s.out := rfl
@[simp] theorem State.modCtx_script (s : State) (c : Nat) (f : Ctx → Ctx) : (s.modCtx c f).script = s.script := rfl
@[simp] theorem State.modCtx_choices (s : State) (c : Nat) (f : Ctx → Ctx) : (s.modCtx c f).choices = s.choices := rfl

/-! ## `State.modDom` changes `doms` alone -/

@[simp] theorem State.modDom_issue (s : State) (d : Nat) (f : Dom → Dom) : (s.modDom d f).issue = s.issue := by
  unfold State.modDom; split <;> rfl
@[simp] theorem State.modDom_kerns (s : State) (d : Nat) (f : Dom → Dom) : (s.modDom d f).kerns = s.kerns := by
  unfold State.modDom; split <;> rfl
@[simp] theorem State.modDom_cores (s : State) (d : Nat) (f : Dom → Dom) : (s.modDom d f).cores = s.cores := by
  unfold State.modDom; split <;> rfl
@[simp] theorem State.modDom_sites (s : State) (d : Nat) (f : Dom → Dom) : (s.modDom d f).sites = s.sites := by
  unfold State.modDom; split <;> rfl
@[simp] theorem State.modDom_launches (s : State) (d : Nat) (f : Dom → Dom) : (s.modDom d f).launches = s.launches := by
  unfold State.modDom; split <;> rfl
@[simp] theorem State.modDom_queues (s : State) (d : Nat) (f : Dom → Dom) : (s.modDom d f).queues = s.queues := by
  unfold State.modDom; split <;> rfl
@[simp] theorem State.modDom_ctxs (s : State) (d : Nat) (f : Dom → Dom) : (s.modDom d f).ctxs = s.ctxs := by
  unfold State.modDom; split <;> rfl
@[simp] theorem State.modDom_objs (s : State) (d : Nat) (f : Dom → Dom) : (s.modDom d f).objs = s.objs := by
  unfold State.modDom; split <;> rfl
@[simp] theorem State.modDom_pans (s : State) (d : Nat) (f : Dom → Dom) : (s.modDom d f).pans = s.pans := by
  unfold State.modDom; split <;> rfl
@[simp] theorem State.modDom_mem (s : State) (d : Nat) (f : Dom → Dom) : (s.modDom d f).mem = s.mem := by
  unfold State.modDom; split <;> rfl
@[simp] theorem State.modDom_marks (s : State) (d : Nat) (f : Dom → Dom) : (s.modDom d f).marks = s.marks := by
  unfold State.modDom; split <;> rfl
@[simp] theorem State.modDom_ue (s : State) (d : Nat) (f : Dom → Dom) : (s.modDom d f).ue = s.ue := by
  unfold State.modDom; split <;> rfl
@[simp] theorem State.modDom_ce (s : State) (d : Nat) (f : Dom → Dom) : (s.modDom d f).ce = s.ce := by
  unfold State.modDom; split <;> rfl
@[simp] theorem State.modDom_encTag (s : State) (d : Nat) (f : Dom → Dom) : (s.modDom d f).encTag = s.encTag := by
  unfold State.modDom; split <;> rfl
@[simp] theorem State.modDom_lines (s : State) (d : Nat) (f : Dom → Dom) : (s.modDom d f).lines = s.lines := by
  unfold State.modDom; split <;> rfl
@[simp] theorem State.modDom_ingress (s : State) (d : Nat) (f : Dom → Dom) : (s.modDom d f).ingress = s.ingress := by
  unfold State.modDom; split <;> rfl
@[simp] theorem State.modDom_tlb (s : State) (d : Nat) (f : Dom → Dom) : (s.modDom d f).tlb = s.tlb := by
  unfold State.modDom; split <;> rfl
@[simp] theorem State.modDom_emiss (s : State) (d : Nat) (f : Dom → Dom) : (s.modDom d f).emiss = s.emiss := by
  unfold State.modDom; split <;> rfl
@[simp] theorem State.modDom_rfaults (s : State) (d : Nat) (f : Dom → Dom) : (s.modDom d f).rfaults = s.rfaults := by
  unfold State.modDom; split <;> rfl
@[simp] theorem State.modDom_ufaults (s : State) (d : Nat) (f : Dom → Dom) : (s.modDom d f).ufaults = s.ufaults := by
  unfold State.modDom; split <;> rfl
@[simp] theorem State.modDom_fills (s : State) (d : Nat) (f : Dom → Dom) : (s.modDom d f).fills = s.fills := by
  unfold State.modDom; split <;> rfl
@[simp] theorem State.modDom_links (s : State) (d : Nat) (f : Dom → Dom) : (s.modDom d f).links = s.links := by
  unfold State.modDom; split <;> rfl
@[simp] theorem State.modDom_recvs (s : State) (d : Nat) (f : Dom → Dom) : (s.modDom d f).recvs = s.recvs := by
  unfold State.modDom; split <;> rfl
@[simp] theorem State.modDom_keyPos (s : State) (d : Nat) (f : Dom → Dom) : (s.modDom d f).keyPos = s.keyPos := by
  unfold State.modDom; split <;> rfl
@[simp] theorem State.modDom_hub (s : State) (d : Nat) (f : Dom → Dom) : (s.modDom d f).hub = s.hub := by
  unfold State.modDom; split <;> rfl
@[simp] theorem State.modDom_reqs (s : State) (d : Nat) (f : Dom → Dom) : (s.modDom d f).reqs = s.reqs := by
  unfold State.modDom; split <;> rfl
@[simp] theorem State.modDom_putsHeld (s : State) (d : Nat) (f : Dom → Dom) : (s.modDom d f).putsHeld = s.putsHeld := by
  unfold State.modDom; split <;> rfl
@[simp] theorem State.modDom_hostIn (s : State) (d : Nat) (f : Dom → Dom) : (s.modDom d f).hostIn = s.hostIn := by
  unfold State.modDom; split <;> rfl
@[simp] theorem State.modDom_mgmtIn (s : State) (d : Nat) (f : Dom → Dom) : (s.modDom d f).mgmtIn = s.mgmtIn := by
  unfold State.modDom; split <;> rfl
@[simp] theorem State.modDom_soft (s : State) (d : Nat) (f : Dom → Dom) : (s.modDom d f).soft = s.soft := by
  unfold State.modDom; split <;> rfl
@[simp] theorem State.modDom_out (s : State) (d : Nat) (f : Dom → Dom) : (s.modDom d f).out = s.out := by
  unfold State.modDom; split <;> rfl
@[simp] theorem State.modDom_script (s : State) (d : Nat) (f : Dom → Dom) : (s.modDom d f).script = s.script := by
  unfold State.modDom; split <;> rfl
@[simp] theorem State.modDom_choices (s : State) (d : Nat) (f : Dom → Dom) : (s.modDom d f).choices = s.choices := by
  unfold State.modDom; split <;> rfl

/-! ## `State.modSite` changes `sites` alone -/

@[simp] theorem State.modSite_issue (s : State) (i : Nat) (f : Site → Site) : (s.modSite i f).issue = s.issue := by
  unfold State.modSite; split <;> rfl
@[simp] theorem State.modSite_kerns (s : State) (i : Nat) (f : Site → Site) : (s.modSite i f).kerns = s.kerns := by
  unfold State.modSite; split <;> rfl
@[simp] theorem State.modSite_cores (s : State) (i : Nat) (f : Site → Site) : (s.modSite i f).cores = s.cores := by
  unfold State.modSite; split <;> rfl
@[simp] theorem State.modSite_doms (s : State) (i : Nat) (f : Site → Site) : (s.modSite i f).doms = s.doms := by
  unfold State.modSite; split <;> rfl
@[simp] theorem State.modSite_launches (s : State) (i : Nat) (f : Site → Site) : (s.modSite i f).launches = s.launches := by
  unfold State.modSite; split <;> rfl
@[simp] theorem State.modSite_queues (s : State) (i : Nat) (f : Site → Site) : (s.modSite i f).queues = s.queues := by
  unfold State.modSite; split <;> rfl
@[simp] theorem State.modSite_ctxs (s : State) (i : Nat) (f : Site → Site) : (s.modSite i f).ctxs = s.ctxs := by
  unfold State.modSite; split <;> rfl
@[simp] theorem State.modSite_objs (s : State) (i : Nat) (f : Site → Site) : (s.modSite i f).objs = s.objs := by
  unfold State.modSite; split <;> rfl
@[simp] theorem State.modSite_pans (s : State) (i : Nat) (f : Site → Site) : (s.modSite i f).pans = s.pans := by
  unfold State.modSite; split <;> rfl
@[simp] theorem State.modSite_mem (s : State) (i : Nat) (f : Site → Site) : (s.modSite i f).mem = s.mem := by
  unfold State.modSite; split <;> rfl
@[simp] theorem State.modSite_marks (s : State) (i : Nat) (f : Site → Site) : (s.modSite i f).marks = s.marks := by
  unfold State.modSite; split <;> rfl
@[simp] theorem State.modSite_ue (s : State) (i : Nat) (f : Site → Site) : (s.modSite i f).ue = s.ue := by
  unfold State.modSite; split <;> rfl
@[simp] theorem State.modSite_ce (s : State) (i : Nat) (f : Site → Site) : (s.modSite i f).ce = s.ce := by
  unfold State.modSite; split <;> rfl
@[simp] theorem State.modSite_encTag (s : State) (i : Nat) (f : Site → Site) : (s.modSite i f).encTag = s.encTag := by
  unfold State.modSite; split <;> rfl
@[simp] theorem State.modSite_lines (s : State) (i : Nat) (f : Site → Site) : (s.modSite i f).lines = s.lines := by
  unfold State.modSite; split <;> rfl
@[simp] theorem State.modSite_ingress (s : State) (i : Nat) (f : Site → Site) : (s.modSite i f).ingress = s.ingress := by
  unfold State.modSite; split <;> rfl
@[simp] theorem State.modSite_tlb (s : State) (i : Nat) (f : Site → Site) : (s.modSite i f).tlb = s.tlb := by
  unfold State.modSite; split <;> rfl
@[simp] theorem State.modSite_emiss (s : State) (i : Nat) (f : Site → Site) : (s.modSite i f).emiss = s.emiss := by
  unfold State.modSite; split <;> rfl
@[simp] theorem State.modSite_rfaults (s : State) (i : Nat) (f : Site → Site) : (s.modSite i f).rfaults = s.rfaults := by
  unfold State.modSite; split <;> rfl
@[simp] theorem State.modSite_ufaults (s : State) (i : Nat) (f : Site → Site) : (s.modSite i f).ufaults = s.ufaults := by
  unfold State.modSite; split <;> rfl
@[simp] theorem State.modSite_fills (s : State) (i : Nat) (f : Site → Site) : (s.modSite i f).fills = s.fills := by
  unfold State.modSite; split <;> rfl
@[simp] theorem State.modSite_links (s : State) (i : Nat) (f : Site → Site) : (s.modSite i f).links = s.links := by
  unfold State.modSite; split <;> rfl
@[simp] theorem State.modSite_recvs (s : State) (i : Nat) (f : Site → Site) : (s.modSite i f).recvs = s.recvs := by
  unfold State.modSite; split <;> rfl
@[simp] theorem State.modSite_keyPos (s : State) (i : Nat) (f : Site → Site) : (s.modSite i f).keyPos = s.keyPos := by
  unfold State.modSite; split <;> rfl
@[simp] theorem State.modSite_hub (s : State) (i : Nat) (f : Site → Site) : (s.modSite i f).hub = s.hub := by
  unfold State.modSite; split <;> rfl
@[simp] theorem State.modSite_reqs (s : State) (i : Nat) (f : Site → Site) : (s.modSite i f).reqs = s.reqs := by
  unfold State.modSite; split <;> rfl
@[simp] theorem State.modSite_putsHeld (s : State) (i : Nat) (f : Site → Site) : (s.modSite i f).putsHeld = s.putsHeld := by
  unfold State.modSite; split <;> rfl
@[simp] theorem State.modSite_hostIn (s : State) (i : Nat) (f : Site → Site) : (s.modSite i f).hostIn = s.hostIn := by
  unfold State.modSite; split <;> rfl
@[simp] theorem State.modSite_mgmtIn (s : State) (i : Nat) (f : Site → Site) : (s.modSite i f).mgmtIn = s.mgmtIn := by
  unfold State.modSite; split <;> rfl
@[simp] theorem State.modSite_soft (s : State) (i : Nat) (f : Site → Site) : (s.modSite i f).soft = s.soft := by
  unfold State.modSite; split <;> rfl
@[simp] theorem State.modSite_out (s : State) (i : Nat) (f : Site → Site) : (s.modSite i f).out = s.out := by
  unfold State.modSite; split <;> rfl
@[simp] theorem State.modSite_script (s : State) (i : Nat) (f : Site → Site) : (s.modSite i f).script = s.script := by
  unfold State.modSite; split <;> rfl
@[simp] theorem State.modSite_choices (s : State) (i : Nat) (f : Site → Site) : (s.modSite i f).choices = s.choices := by
  unfold State.modSite; split <;> rfl

/-! ## `State.advanceSlot` changes `issue` alone -/

@[simp] theorem State.advanceSlot_kerns (s : State) : (s.advanceSlot).kerns = s.kerns := rfl
@[simp] theorem State.advanceSlot_cores (s : State) : (s.advanceSlot).cores = s.cores := rfl
@[simp] theorem State.advanceSlot_doms (s : State) : (s.advanceSlot).doms = s.doms := rfl
@[simp] theorem State.advanceSlot_sites (s : State) : (s.advanceSlot).sites = s.sites := rfl
@[simp] theorem State.advanceSlot_launches (s : State) : (s.advanceSlot).launches = s.launches := rfl
@[simp] theorem State.advanceSlot_queues (s : State) : (s.advanceSlot).queues = s.queues := rfl
@[simp] theorem State.advanceSlot_ctxs (s : State) : (s.advanceSlot).ctxs = s.ctxs := rfl
@[simp] theorem State.advanceSlot_objs (s : State) : (s.advanceSlot).objs = s.objs := rfl
@[simp] theorem State.advanceSlot_pans (s : State) : (s.advanceSlot).pans = s.pans := rfl
@[simp] theorem State.advanceSlot_mem (s : State) : (s.advanceSlot).mem = s.mem := rfl
@[simp] theorem State.advanceSlot_marks (s : State) : (s.advanceSlot).marks = s.marks := rfl
@[simp] theorem State.advanceSlot_ue (s : State) : (s.advanceSlot).ue = s.ue := rfl
@[simp] theorem State.advanceSlot_ce (s : State) : (s.advanceSlot).ce = s.ce := rfl
@[simp] theorem State.advanceSlot_encTag (s : State) : (s.advanceSlot).encTag = s.encTag := rfl
@[simp] theorem State.advanceSlot_lines (s : State) : (s.advanceSlot).lines = s.lines := rfl
@[simp] theorem State.advanceSlot_ingress (s : State) : (s.advanceSlot).ingress = s.ingress := rfl
@[simp] theorem State.advanceSlot_tlb (s : State) : (s.advanceSlot).tlb = s.tlb := rfl
@[simp] theorem State.advanceSlot_emiss (s : State) : (s.advanceSlot).emiss = s.emiss := rfl
@[simp] theorem State.advanceSlot_rfaults (s : State) : (s.advanceSlot).rfaults = s.rfaults := rfl
@[simp] theorem State.advanceSlot_ufaults (s : State) : (s.advanceSlot).ufaults = s.ufaults := rfl
@[simp] theorem State.advanceSlot_fills (s : State) : (s.advanceSlot).fills = s.fills := rfl
@[simp] theorem State.advanceSlot_links (s : State) : (s.advanceSlot).links = s.links := rfl
@[simp] theorem State.advanceSlot_recvs (s : State) : (s.advanceSlot).recvs = s.recvs := rfl
@[simp] theorem State.advanceSlot_keyPos (s : State) : (s.advanceSlot).keyPos = s.keyPos := rfl
@[simp] theorem State.advanceSlot_hub (s : State) : (s.advanceSlot).hub = s.hub := rfl
@[simp] theorem State.advanceSlot_reqs (s : State) : (s.advanceSlot).reqs = s.reqs := rfl
@[simp] theorem State.advanceSlot_putsHeld (s : State) : (s.advanceSlot).putsHeld = s.putsHeld := rfl
@[simp] theorem State.advanceSlot_hostIn (s : State) : (s.advanceSlot).hostIn = s.hostIn := rfl
@[simp] theorem State.advanceSlot_mgmtIn (s : State) : (s.advanceSlot).mgmtIn = s.mgmtIn := rfl
@[simp] theorem State.advanceSlot_soft (s : State) : (s.advanceSlot).soft = s.soft := rfl
@[simp] theorem State.advanceSlot_out (s : State) : (s.advanceSlot).out = s.out := rfl
@[simp] theorem State.advanceSlot_script (s : State) : (s.advanceSlot).script = s.script := rfl
@[simp] theorem State.advanceSlot_choices (s : State) : (s.advanceSlot).choices = s.choices := rfl

/-! ## `State.withOpnd` changes `issue` alone -/

@[simp] theorem State.withOpnd_kerns (s : State) (n : Nat) : (s.withOpnd n).kerns = s.kerns := rfl
@[simp] theorem State.withOpnd_cores (s : State) (n : Nat) : (s.withOpnd n).cores = s.cores := rfl
@[simp] theorem State.withOpnd_doms (s : State) (n : Nat) : (s.withOpnd n).doms = s.doms := rfl
@[simp] theorem State.withOpnd_sites (s : State) (n : Nat) : (s.withOpnd n).sites = s.sites := rfl
@[simp] theorem State.withOpnd_launches (s : State) (n : Nat) : (s.withOpnd n).launches = s.launches := rfl
@[simp] theorem State.withOpnd_queues (s : State) (n : Nat) : (s.withOpnd n).queues = s.queues := rfl
@[simp] theorem State.withOpnd_ctxs (s : State) (n : Nat) : (s.withOpnd n).ctxs = s.ctxs := rfl
@[simp] theorem State.withOpnd_objs (s : State) (n : Nat) : (s.withOpnd n).objs = s.objs := rfl
@[simp] theorem State.withOpnd_pans (s : State) (n : Nat) : (s.withOpnd n).pans = s.pans := rfl
@[simp] theorem State.withOpnd_mem (s : State) (n : Nat) : (s.withOpnd n).mem = s.mem := rfl
@[simp] theorem State.withOpnd_marks (s : State) (n : Nat) : (s.withOpnd n).marks = s.marks := rfl
@[simp] theorem State.withOpnd_ue (s : State) (n : Nat) : (s.withOpnd n).ue = s.ue := rfl
@[simp] theorem State.withOpnd_ce (s : State) (n : Nat) : (s.withOpnd n).ce = s.ce := rfl
@[simp] theorem State.withOpnd_encTag (s : State) (n : Nat) : (s.withOpnd n).encTag = s.encTag := rfl
@[simp] theorem State.withOpnd_lines (s : State) (n : Nat) : (s.withOpnd n).lines = s.lines := rfl
@[simp] theorem State.withOpnd_ingress (s : State) (n : Nat) : (s.withOpnd n).ingress = s.ingress := rfl
@[simp] theorem State.withOpnd_tlb (s : State) (n : Nat) : (s.withOpnd n).tlb = s.tlb := rfl
@[simp] theorem State.withOpnd_emiss (s : State) (n : Nat) : (s.withOpnd n).emiss = s.emiss := rfl
@[simp] theorem State.withOpnd_rfaults (s : State) (n : Nat) : (s.withOpnd n).rfaults = s.rfaults := rfl
@[simp] theorem State.withOpnd_ufaults (s : State) (n : Nat) : (s.withOpnd n).ufaults = s.ufaults := rfl
@[simp] theorem State.withOpnd_fills (s : State) (n : Nat) : (s.withOpnd n).fills = s.fills := rfl
@[simp] theorem State.withOpnd_links (s : State) (n : Nat) : (s.withOpnd n).links = s.links := rfl
@[simp] theorem State.withOpnd_recvs (s : State) (n : Nat) : (s.withOpnd n).recvs = s.recvs := rfl
@[simp] theorem State.withOpnd_keyPos (s : State) (n : Nat) : (s.withOpnd n).keyPos = s.keyPos := rfl
@[simp] theorem State.withOpnd_hub (s : State) (n : Nat) : (s.withOpnd n).hub = s.hub := rfl
@[simp] theorem State.withOpnd_reqs (s : State) (n : Nat) : (s.withOpnd n).reqs = s.reqs := rfl
@[simp] theorem State.withOpnd_putsHeld (s : State) (n : Nat) : (s.withOpnd n).putsHeld = s.putsHeld := rfl
@[simp] theorem State.withOpnd_hostIn (s : State) (n : Nat) : (s.withOpnd n).hostIn = s.hostIn := rfl
@[simp] theorem State.withOpnd_mgmtIn (s : State) (n : Nat) : (s.withOpnd n).mgmtIn = s.mgmtIn := rfl
@[simp] theorem State.withOpnd_soft (s : State) (n : Nat) : (s.withOpnd n).soft = s.soft := rfl
@[simp] theorem State.withOpnd_out (s : State) (n : Nat) : (s.withOpnd n).out = s.out := rfl
@[simp] theorem State.withOpnd_script (s : State) (n : Nat) : (s.withOpnd n).script = s.script := rfl
@[simp] theorem State.withOpnd_choices (s : State) (n : Nat) : (s.withOpnd n).choices = s.choices := rfl

/-! ## `State.modPan` changes `pans` alone -/

@[simp] theorem State.modPan_issue (s : State) (g : Nat) (f : Pan → Pan) : (s.modPan g f).issue = s.issue := rfl
@[simp] theorem State.modPan_kerns (s : State) (g : Nat) (f : Pan → Pan) : (s.modPan g f).kerns = s.kerns := rfl
@[simp] theorem State.modPan_cores (s : State) (g : Nat) (f : Pan → Pan) : (s.modPan g f).cores = s.cores := rfl
@[simp] theorem State.modPan_doms (s : State) (g : Nat) (f : Pan → Pan) : (s.modPan g f).doms = s.doms := rfl
@[simp] theorem State.modPan_sites (s : State) (g : Nat) (f : Pan → Pan) : (s.modPan g f).sites = s.sites := rfl
@[simp] theorem State.modPan_launches (s : State) (g : Nat) (f : Pan → Pan) : (s.modPan g f).launches = s.launches := rfl
@[simp] theorem State.modPan_queues (s : State) (g : Nat) (f : Pan → Pan) : (s.modPan g f).queues = s.queues := rfl
@[simp] theorem State.modPan_ctxs (s : State) (g : Nat) (f : Pan → Pan) : (s.modPan g f).ctxs = s.ctxs := rfl
@[simp] theorem State.modPan_objs (s : State) (g : Nat) (f : Pan → Pan) : (s.modPan g f).objs = s.objs := rfl
@[simp] theorem State.modPan_mem (s : State) (g : Nat) (f : Pan → Pan) : (s.modPan g f).mem = s.mem := rfl
@[simp] theorem State.modPan_marks (s : State) (g : Nat) (f : Pan → Pan) : (s.modPan g f).marks = s.marks := rfl
@[simp] theorem State.modPan_ue (s : State) (g : Nat) (f : Pan → Pan) : (s.modPan g f).ue = s.ue := rfl
@[simp] theorem State.modPan_ce (s : State) (g : Nat) (f : Pan → Pan) : (s.modPan g f).ce = s.ce := rfl
@[simp] theorem State.modPan_encTag (s : State) (g : Nat) (f : Pan → Pan) : (s.modPan g f).encTag = s.encTag := rfl
@[simp] theorem State.modPan_lines (s : State) (g : Nat) (f : Pan → Pan) : (s.modPan g f).lines = s.lines := rfl
@[simp] theorem State.modPan_ingress (s : State) (g : Nat) (f : Pan → Pan) : (s.modPan g f).ingress = s.ingress := rfl
@[simp] theorem State.modPan_tlb (s : State) (g : Nat) (f : Pan → Pan) : (s.modPan g f).tlb = s.tlb := rfl
@[simp] theorem State.modPan_emiss (s : State) (g : Nat) (f : Pan → Pan) : (s.modPan g f).emiss = s.emiss := rfl
@[simp] theorem State.modPan_rfaults (s : State) (g : Nat) (f : Pan → Pan) : (s.modPan g f).rfaults = s.rfaults := rfl
@[simp] theorem State.modPan_ufaults (s : State) (g : Nat) (f : Pan → Pan) : (s.modPan g f).ufaults = s.ufaults := rfl
@[simp] theorem State.modPan_fills (s : State) (g : Nat) (f : Pan → Pan) : (s.modPan g f).fills = s.fills := rfl
@[simp] theorem State.modPan_links (s : State) (g : Nat) (f : Pan → Pan) : (s.modPan g f).links = s.links := rfl
@[simp] theorem State.modPan_recvs (s : State) (g : Nat) (f : Pan → Pan) : (s.modPan g f).recvs = s.recvs := rfl
@[simp] theorem State.modPan_keyPos (s : State) (g : Nat) (f : Pan → Pan) : (s.modPan g f).keyPos = s.keyPos := rfl
@[simp] theorem State.modPan_hub (s : State) (g : Nat) (f : Pan → Pan) : (s.modPan g f).hub = s.hub := rfl
@[simp] theorem State.modPan_reqs (s : State) (g : Nat) (f : Pan → Pan) : (s.modPan g f).reqs = s.reqs := rfl
@[simp] theorem State.modPan_putsHeld (s : State) (g : Nat) (f : Pan → Pan) : (s.modPan g f).putsHeld = s.putsHeld := rfl
@[simp] theorem State.modPan_hostIn (s : State) (g : Nat) (f : Pan → Pan) : (s.modPan g f).hostIn = s.hostIn := rfl
@[simp] theorem State.modPan_mgmtIn (s : State) (g : Nat) (f : Pan → Pan) : (s.modPan g f).mgmtIn = s.mgmtIn := rfl
@[simp] theorem State.modPan_soft (s : State) (g : Nat) (f : Pan → Pan) : (s.modPan g f).soft = s.soft := rfl
@[simp] theorem State.modPan_out (s : State) (g : Nat) (f : Pan → Pan) : (s.modPan g f).out = s.out := rfl
@[simp] theorem State.modPan_script (s : State) (g : Nat) (f : Pan → Pan) : (s.modPan g f).script = s.script := rfl
@[simp] theorem State.modPan_choices (s : State) (g : Nat) (f : Pan → Pan) : (s.modPan g f).choices = s.choices := rfl

/-! ## `State.modQueue` changes `queues` alone -/

@[simp] theorem State.modQueue_issue (s : State) (q : Nat) (f : Queue → Queue) : (s.modQueue q f).issue = s.issue := rfl
@[simp] theorem State.modQueue_kerns (s : State) (q : Nat) (f : Queue → Queue) : (s.modQueue q f).kerns = s.kerns := rfl
@[simp] theorem State.modQueue_cores (s : State) (q : Nat) (f : Queue → Queue) : (s.modQueue q f).cores = s.cores := rfl
@[simp] theorem State.modQueue_doms (s : State) (q : Nat) (f : Queue → Queue) : (s.modQueue q f).doms = s.doms := rfl
@[simp] theorem State.modQueue_sites (s : State) (q : Nat) (f : Queue → Queue) : (s.modQueue q f).sites = s.sites := rfl
@[simp] theorem State.modQueue_launches (s : State) (q : Nat) (f : Queue → Queue) : (s.modQueue q f).launches = s.launches := rfl
@[simp] theorem State.modQueue_ctxs (s : State) (q : Nat) (f : Queue → Queue) : (s.modQueue q f).ctxs = s.ctxs := rfl
@[simp] theorem State.modQueue_objs (s : State) (q : Nat) (f : Queue → Queue) : (s.modQueue q f).objs = s.objs := rfl
@[simp] theorem State.modQueue_pans (s : State) (q : Nat) (f : Queue → Queue) : (s.modQueue q f).pans = s.pans := rfl
@[simp] theorem State.modQueue_mem (s : State) (q : Nat) (f : Queue → Queue) : (s.modQueue q f).mem = s.mem := rfl
@[simp] theorem State.modQueue_marks (s : State) (q : Nat) (f : Queue → Queue) : (s.modQueue q f).marks = s.marks := rfl
@[simp] theorem State.modQueue_ue (s : State) (q : Nat) (f : Queue → Queue) : (s.modQueue q f).ue = s.ue := rfl
@[simp] theorem State.modQueue_ce (s : State) (q : Nat) (f : Queue → Queue) : (s.modQueue q f).ce = s.ce := rfl
@[simp] theorem State.modQueue_encTag (s : State) (q : Nat) (f : Queue → Queue) : (s.modQueue q f).encTag = s.encTag := rfl
@[simp] theorem State.modQueue_lines (s : State) (q : Nat) (f : Queue → Queue) : (s.modQueue q f).lines = s.lines := rfl
@[simp] theorem State.modQueue_ingress (s : State) (q : Nat) (f : Queue → Queue) : (s.modQueue q f).ingress = s.ingress := rfl
@[simp] theorem State.modQueue_tlb (s : State) (q : Nat) (f : Queue → Queue) : (s.modQueue q f).tlb = s.tlb := rfl
@[simp] theorem State.modQueue_emiss (s : State) (q : Nat) (f : Queue → Queue) : (s.modQueue q f).emiss = s.emiss := rfl
@[simp] theorem State.modQueue_rfaults (s : State) (q : Nat) (f : Queue → Queue) : (s.modQueue q f).rfaults = s.rfaults := rfl
@[simp] theorem State.modQueue_ufaults (s : State) (q : Nat) (f : Queue → Queue) : (s.modQueue q f).ufaults = s.ufaults := rfl
@[simp] theorem State.modQueue_fills (s : State) (q : Nat) (f : Queue → Queue) : (s.modQueue q f).fills = s.fills := rfl
@[simp] theorem State.modQueue_links (s : State) (q : Nat) (f : Queue → Queue) : (s.modQueue q f).links = s.links := rfl
@[simp] theorem State.modQueue_recvs (s : State) (q : Nat) (f : Queue → Queue) : (s.modQueue q f).recvs = s.recvs := rfl
@[simp] theorem State.modQueue_keyPos (s : State) (q : Nat) (f : Queue → Queue) : (s.modQueue q f).keyPos = s.keyPos := rfl
@[simp] theorem State.modQueue_hub (s : State) (q : Nat) (f : Queue → Queue) : (s.modQueue q f).hub = s.hub := rfl
@[simp] theorem State.modQueue_reqs (s : State) (q : Nat) (f : Queue → Queue) : (s.modQueue q f).reqs = s.reqs := rfl
@[simp] theorem State.modQueue_putsHeld (s : State) (q : Nat) (f : Queue → Queue) : (s.modQueue q f).putsHeld = s.putsHeld := rfl
@[simp] theorem State.modQueue_hostIn (s : State) (q : Nat) (f : Queue → Queue) : (s.modQueue q f).hostIn = s.hostIn := rfl
@[simp] theorem State.modQueue_mgmtIn (s : State) (q : Nat) (f : Queue → Queue) : (s.modQueue q f).mgmtIn = s.mgmtIn := rfl
@[simp] theorem State.modQueue_soft (s : State) (q : Nat) (f : Queue → Queue) : (s.modQueue q f).soft = s.soft := rfl
@[simp] theorem State.modQueue_out (s : State) (q : Nat) (f : Queue → Queue) : (s.modQueue q f).out = s.out := rfl
@[simp] theorem State.modQueue_script (s : State) (q : Nat) (f : Queue → Queue) : (s.modQueue q f).script = s.script := rfl
@[simp] theorem State.modQueue_choices (s : State) (q : Nat) (f : Queue → Queue) : (s.modQueue q f).choices = s.choices := rfl

/-! ## `State.modLport` changes `links` alone -/

@[simp] theorem State.modLport_issue (s : State) (key : Nat) (f : LinkPort → LinkPort) : (s.modLport key f).issue = s.issue := rfl
@[simp] theorem State.modLport_kerns (s : State) (key : Nat) (f : LinkPort → LinkPort) : (s.modLport key f).kerns = s.kerns := rfl
@[simp] theorem State.modLport_cores (s : State) (key : Nat) (f : LinkPort → LinkPort) : (s.modLport key f).cores = s.cores := rfl
@[simp] theorem State.modLport_doms (s : State) (key : Nat) (f : LinkPort → LinkPort) : (s.modLport key f).doms = s.doms := rfl
@[simp] theorem State.modLport_sites (s : State) (key : Nat) (f : LinkPort → LinkPort) : (s.modLport key f).sites = s.sites := rfl
@[simp] theorem State.modLport_launches (s : State) (key : Nat) (f : LinkPort → LinkPort) : (s.modLport key f).launches = s.launches := rfl
@[simp] theorem State.modLport_queues (s : State) (key : Nat) (f : LinkPort → LinkPort) : (s.modLport key f).queues = s.queues := rfl
@[simp] theorem State.modLport_ctxs (s : State) (key : Nat) (f : LinkPort → LinkPort) : (s.modLport key f).ctxs = s.ctxs := rfl
@[simp] theorem State.modLport_objs (s : State) (key : Nat) (f : LinkPort → LinkPort) : (s.modLport key f).objs = s.objs := rfl
@[simp] theorem State.modLport_pans (s : State) (key : Nat) (f : LinkPort → LinkPort) : (s.modLport key f).pans = s.pans := rfl
@[simp] theorem State.modLport_mem (s : State) (key : Nat) (f : LinkPort → LinkPort) : (s.modLport key f).mem = s.mem := rfl
@[simp] theorem State.modLport_marks (s : State) (key : Nat) (f : LinkPort → LinkPort) : (s.modLport key f).marks = s.marks := rfl
@[simp] theorem State.modLport_ue (s : State) (key : Nat) (f : LinkPort → LinkPort) : (s.modLport key f).ue = s.ue := rfl
@[simp] theorem State.modLport_ce (s : State) (key : Nat) (f : LinkPort → LinkPort) : (s.modLport key f).ce = s.ce := rfl
@[simp] theorem State.modLport_encTag (s : State) (key : Nat) (f : LinkPort → LinkPort) : (s.modLport key f).encTag = s.encTag := rfl
@[simp] theorem State.modLport_lines (s : State) (key : Nat) (f : LinkPort → LinkPort) : (s.modLport key f).lines = s.lines := rfl
@[simp] theorem State.modLport_ingress (s : State) (key : Nat) (f : LinkPort → LinkPort) : (s.modLport key f).ingress = s.ingress := rfl
@[simp] theorem State.modLport_tlb (s : State) (key : Nat) (f : LinkPort → LinkPort) : (s.modLport key f).tlb = s.tlb := rfl
@[simp] theorem State.modLport_emiss (s : State) (key : Nat) (f : LinkPort → LinkPort) : (s.modLport key f).emiss = s.emiss := rfl
@[simp] theorem State.modLport_rfaults (s : State) (key : Nat) (f : LinkPort → LinkPort) : (s.modLport key f).rfaults = s.rfaults := rfl
@[simp] theorem State.modLport_ufaults (s : State) (key : Nat) (f : LinkPort → LinkPort) : (s.modLport key f).ufaults = s.ufaults := rfl
@[simp] theorem State.modLport_fills (s : State) (key : Nat) (f : LinkPort → LinkPort) : (s.modLport key f).fills = s.fills := rfl
@[simp] theorem State.modLport_recvs (s : State) (key : Nat) (f : LinkPort → LinkPort) : (s.modLport key f).recvs = s.recvs := rfl
@[simp] theorem State.modLport_keyPos (s : State) (key : Nat) (f : LinkPort → LinkPort) : (s.modLport key f).keyPos = s.keyPos := rfl
@[simp] theorem State.modLport_hub (s : State) (key : Nat) (f : LinkPort → LinkPort) : (s.modLport key f).hub = s.hub := rfl
@[simp] theorem State.modLport_reqs (s : State) (key : Nat) (f : LinkPort → LinkPort) : (s.modLport key f).reqs = s.reqs := rfl
@[simp] theorem State.modLport_putsHeld (s : State) (key : Nat) (f : LinkPort → LinkPort) : (s.modLport key f).putsHeld = s.putsHeld := rfl
@[simp] theorem State.modLport_hostIn (s : State) (key : Nat) (f : LinkPort → LinkPort) : (s.modLport key f).hostIn = s.hostIn := rfl
@[simp] theorem State.modLport_mgmtIn (s : State) (key : Nat) (f : LinkPort → LinkPort) : (s.modLport key f).mgmtIn = s.mgmtIn := rfl
@[simp] theorem State.modLport_soft (s : State) (key : Nat) (f : LinkPort → LinkPort) : (s.modLport key f).soft = s.soft := rfl
@[simp] theorem State.modLport_out (s : State) (key : Nat) (f : LinkPort → LinkPort) : (s.modLport key f).out = s.out := rfl
@[simp] theorem State.modLport_script (s : State) (key : Nat) (f : LinkPort → LinkPort) : (s.modLport key f).script = s.script := rfl
@[simp] theorem State.modLport_choices (s : State) (key : Nat) (f : LinkPort → LinkPort) : (s.modLport key f).choices = s.choices := rfl

/-! ## `State.modItem` changes `cores` alone -/

@[simp] theorem State.modItem_issue (s : State) (c seq : Nat) (f : PItem → PItem) : (s.modItem c seq f).issue = s.issue := rfl
@[simp] theorem State.modItem_kerns (s : State) (c seq : Nat) (f : PItem → PItem) : (s.modItem c seq f).kerns = s.kerns := rfl
@[simp] theorem State.modItem_doms (s : State) (c seq : Nat) (f : PItem → PItem) : (s.modItem c seq f).doms = s.doms := rfl
@[simp] theorem State.modItem_sites (s : State) (c seq : Nat) (f : PItem → PItem) : (s.modItem c seq f).sites = s.sites := rfl
@[simp] theorem State.modItem_launches (s : State) (c seq : Nat) (f : PItem → PItem) : (s.modItem c seq f).launches = s.launches := rfl
@[simp] theorem State.modItem_queues (s : State) (c seq : Nat) (f : PItem → PItem) : (s.modItem c seq f).queues = s.queues := rfl
@[simp] theorem State.modItem_ctxs (s : State) (c seq : Nat) (f : PItem → PItem) : (s.modItem c seq f).ctxs = s.ctxs := rfl
@[simp] theorem State.modItem_objs (s : State) (c seq : Nat) (f : PItem → PItem) : (s.modItem c seq f).objs = s.objs := rfl
@[simp] theorem State.modItem_pans (s : State) (c seq : Nat) (f : PItem → PItem) : (s.modItem c seq f).pans = s.pans := rfl
@[simp] theorem State.modItem_mem (s : State) (c seq : Nat) (f : PItem → PItem) : (s.modItem c seq f).mem = s.mem := rfl
@[simp] theorem State.modItem_marks (s : State) (c seq : Nat) (f : PItem → PItem) : (s.modItem c seq f).marks = s.marks := rfl
@[simp] theorem State.modItem_ue (s : State) (c seq : Nat) (f : PItem → PItem) : (s.modItem c seq f).ue = s.ue := rfl
@[simp] theorem State.modItem_ce (s : State) (c seq : Nat) (f : PItem → PItem) : (s.modItem c seq f).ce = s.ce := rfl
@[simp] theorem State.modItem_encTag (s : State) (c seq : Nat) (f : PItem → PItem) : (s.modItem c seq f).encTag = s.encTag := rfl
@[simp] theorem State.modItem_lines (s : State) (c seq : Nat) (f : PItem → PItem) : (s.modItem c seq f).lines = s.lines := rfl
@[simp] theorem State.modItem_ingress (s : State) (c seq : Nat) (f : PItem → PItem) : (s.modItem c seq f).ingress = s.ingress := rfl
@[simp] theorem State.modItem_tlb (s : State) (c seq : Nat) (f : PItem → PItem) : (s.modItem c seq f).tlb = s.tlb := rfl
@[simp] theorem State.modItem_emiss (s : State) (c seq : Nat) (f : PItem → PItem) : (s.modItem c seq f).emiss = s.emiss := rfl
@[simp] theorem State.modItem_rfaults (s : State) (c seq : Nat) (f : PItem → PItem) : (s.modItem c seq f).rfaults = s.rfaults := rfl
@[simp] theorem State.modItem_ufaults (s : State) (c seq : Nat) (f : PItem → PItem) : (s.modItem c seq f).ufaults = s.ufaults := rfl
@[simp] theorem State.modItem_fills (s : State) (c seq : Nat) (f : PItem → PItem) : (s.modItem c seq f).fills = s.fills := rfl
@[simp] theorem State.modItem_links (s : State) (c seq : Nat) (f : PItem → PItem) : (s.modItem c seq f).links = s.links := rfl
@[simp] theorem State.modItem_recvs (s : State) (c seq : Nat) (f : PItem → PItem) : (s.modItem c seq f).recvs = s.recvs := rfl
@[simp] theorem State.modItem_keyPos (s : State) (c seq : Nat) (f : PItem → PItem) : (s.modItem c seq f).keyPos = s.keyPos := rfl
@[simp] theorem State.modItem_hub (s : State) (c seq : Nat) (f : PItem → PItem) : (s.modItem c seq f).hub = s.hub := rfl
@[simp] theorem State.modItem_reqs (s : State) (c seq : Nat) (f : PItem → PItem) : (s.modItem c seq f).reqs = s.reqs := rfl
@[simp] theorem State.modItem_putsHeld (s : State) (c seq : Nat) (f : PItem → PItem) : (s.modItem c seq f).putsHeld = s.putsHeld := rfl
@[simp] theorem State.modItem_hostIn (s : State) (c seq : Nat) (f : PItem → PItem) : (s.modItem c seq f).hostIn = s.hostIn := rfl
@[simp] theorem State.modItem_mgmtIn (s : State) (c seq : Nat) (f : PItem → PItem) : (s.modItem c seq f).mgmtIn = s.mgmtIn := rfl
@[simp] theorem State.modItem_soft (s : State) (c seq : Nat) (f : PItem → PItem) : (s.modItem c seq f).soft = s.soft := rfl
@[simp] theorem State.modItem_out (s : State) (c seq : Nat) (f : PItem → PItem) : (s.modItem c seq f).out = s.out := rfl
@[simp] theorem State.modItem_script (s : State) (c seq : Nat) (f : PItem → PItem) : (s.modItem c seq f).script = s.script := rfl
@[simp] theorem State.modItem_choices (s : State) (c seq : Nat) (f : PItem → PItem) : (s.modItem c seq f).choices = s.choices := rfl

/-! ## `State.modLaunch` changes `launches` alone -/

@[simp] theorem State.modLaunch_issue (s : State) (l : Nat) (f : Launch → Launch) : (s.modLaunch l f).issue = s.issue := by
  unfold State.modLaunch; split <;> rfl
@[simp] theorem State.modLaunch_kerns (s : State) (l : Nat) (f : Launch → Launch) : (s.modLaunch l f).kerns = s.kerns := by
  unfold State.modLaunch; split <;> rfl
@[simp] theorem State.modLaunch_cores (s : State) (l : Nat) (f : Launch → Launch) : (s.modLaunch l f).cores = s.cores := by
  unfold State.modLaunch; split <;> rfl
@[simp] theorem State.modLaunch_doms (s : State) (l : Nat) (f : Launch → Launch) : (s.modLaunch l f).doms = s.doms := by
  unfold State.modLaunch; split <;> rfl
@[simp] theorem State.modLaunch_sites (s : State) (l : Nat) (f : Launch → Launch) : (s.modLaunch l f).sites = s.sites := by
  unfold State.modLaunch; split <;> rfl
@[simp] theorem State.modLaunch_queues (s : State) (l : Nat) (f : Launch → Launch) : (s.modLaunch l f).queues = s.queues := by
  unfold State.modLaunch; split <;> rfl
@[simp] theorem State.modLaunch_ctxs (s : State) (l : Nat) (f : Launch → Launch) : (s.modLaunch l f).ctxs = s.ctxs := by
  unfold State.modLaunch; split <;> rfl
@[simp] theorem State.modLaunch_objs (s : State) (l : Nat) (f : Launch → Launch) : (s.modLaunch l f).objs = s.objs := by
  unfold State.modLaunch; split <;> rfl
@[simp] theorem State.modLaunch_pans (s : State) (l : Nat) (f : Launch → Launch) : (s.modLaunch l f).pans = s.pans := by
  unfold State.modLaunch; split <;> rfl
@[simp] theorem State.modLaunch_mem (s : State) (l : Nat) (f : Launch → Launch) : (s.modLaunch l f).mem = s.mem := by
  unfold State.modLaunch; split <;> rfl
@[simp] theorem State.modLaunch_marks (s : State) (l : Nat) (f : Launch → Launch) : (s.modLaunch l f).marks = s.marks := by
  unfold State.modLaunch; split <;> rfl
@[simp] theorem State.modLaunch_ue (s : State) (l : Nat) (f : Launch → Launch) : (s.modLaunch l f).ue = s.ue := by
  unfold State.modLaunch; split <;> rfl
@[simp] theorem State.modLaunch_ce (s : State) (l : Nat) (f : Launch → Launch) : (s.modLaunch l f).ce = s.ce := by
  unfold State.modLaunch; split <;> rfl
@[simp] theorem State.modLaunch_encTag (s : State) (l : Nat) (f : Launch → Launch) : (s.modLaunch l f).encTag = s.encTag := by
  unfold State.modLaunch; split <;> rfl
@[simp] theorem State.modLaunch_lines (s : State) (l : Nat) (f : Launch → Launch) : (s.modLaunch l f).lines = s.lines := by
  unfold State.modLaunch; split <;> rfl
@[simp] theorem State.modLaunch_ingress (s : State) (l : Nat) (f : Launch → Launch) : (s.modLaunch l f).ingress = s.ingress := by
  unfold State.modLaunch; split <;> rfl
@[simp] theorem State.modLaunch_tlb (s : State) (l : Nat) (f : Launch → Launch) : (s.modLaunch l f).tlb = s.tlb := by
  unfold State.modLaunch; split <;> rfl
@[simp] theorem State.modLaunch_emiss (s : State) (l : Nat) (f : Launch → Launch) : (s.modLaunch l f).emiss = s.emiss := by
  unfold State.modLaunch; split <;> rfl
@[simp] theorem State.modLaunch_rfaults (s : State) (l : Nat) (f : Launch → Launch) : (s.modLaunch l f).rfaults = s.rfaults := by
  unfold State.modLaunch; split <;> rfl
@[simp] theorem State.modLaunch_ufaults (s : State) (l : Nat) (f : Launch → Launch) : (s.modLaunch l f).ufaults = s.ufaults := by
  unfold State.modLaunch; split <;> rfl
@[simp] theorem State.modLaunch_fills (s : State) (l : Nat) (f : Launch → Launch) : (s.modLaunch l f).fills = s.fills := by
  unfold State.modLaunch; split <;> rfl
@[simp] theorem State.modLaunch_links (s : State) (l : Nat) (f : Launch → Launch) : (s.modLaunch l f).links = s.links := by
  unfold State.modLaunch; split <;> rfl
@[simp] theorem State.modLaunch_recvs (s : State) (l : Nat) (f : Launch → Launch) : (s.modLaunch l f).recvs = s.recvs := by
  unfold State.modLaunch; split <;> rfl
@[simp] theorem State.modLaunch_keyPos (s : State) (l : Nat) (f : Launch → Launch) : (s.modLaunch l f).keyPos = s.keyPos := by
  unfold State.modLaunch; split <;> rfl
@[simp] theorem State.modLaunch_hub (s : State) (l : Nat) (f : Launch → Launch) : (s.modLaunch l f).hub = s.hub := by
  unfold State.modLaunch; split <;> rfl
@[simp] theorem State.modLaunch_reqs (s : State) (l : Nat) (f : Launch → Launch) : (s.modLaunch l f).reqs = s.reqs := by
  unfold State.modLaunch; split <;> rfl
@[simp] theorem State.modLaunch_putsHeld (s : State) (l : Nat) (f : Launch → Launch) : (s.modLaunch l f).putsHeld = s.putsHeld := by
  unfold State.modLaunch; split <;> rfl
@[simp] theorem State.modLaunch_hostIn (s : State) (l : Nat) (f : Launch → Launch) : (s.modLaunch l f).hostIn = s.hostIn := by
  unfold State.modLaunch; split <;> rfl
@[simp] theorem State.modLaunch_mgmtIn (s : State) (l : Nat) (f : Launch → Launch) : (s.modLaunch l f).mgmtIn = s.mgmtIn := by
  unfold State.modLaunch; split <;> rfl
@[simp] theorem State.modLaunch_soft (s : State) (l : Nat) (f : Launch → Launch) : (s.modLaunch l f).soft = s.soft := by
  unfold State.modLaunch; split <;> rfl
@[simp] theorem State.modLaunch_out (s : State) (l : Nat) (f : Launch → Launch) : (s.modLaunch l f).out = s.out := by
  unfold State.modLaunch; split <;> rfl
@[simp] theorem State.modLaunch_script (s : State) (l : Nat) (f : Launch → Launch) : (s.modLaunch l f).script = s.script := by
  unfold State.modLaunch; split <;> rfl
@[simp] theorem State.modLaunch_choices (s : State) (l : Nat) (f : Launch → Launch) : (s.modLaunch l f).choices = s.choices := by
  unfold State.modLaunch; split <;> rfl

@[simp] theorem State.choose_fst (s : State) : s.choose.1 = s.choices := rfl
@[simp] theorem State.choose_snd (s : State) : s.choose.2 = { s with choices := s.choices + 1 } := rfl

/-! ## Requests at the pans -/

/-- Requests that reach groups change pans alone (09 R235, R236). -/
theorem State.reachGroups_eq (s : State) (l : List Nat) : ∃ ps, (s.reachGroups l).1 = { s with pans := ps } := by
  induction l generalizing s with
  | nil => exact ⟨s.pans, rfl⟩
  | cons g t ih =>
    obtain ⟨ps, h⟩ := ih (s.touchPan g)
    by_cases r : (s.touchPan g).panReady g = true
    · exact ⟨ps, by simp only [State.reachGroups, r, ↓reduceIte, h]; rfl⟩
    · exact ⟨(s.touchPan g).pans, by simp only [State.reachGroups, r]; rfl⟩

/-- So do the reads of a walk. -/
theorem State.reachTables_eq (s : State) (ctx va : Nat) : ∃ ps, (s.reachTables ctx va).1 = { s with pans := ps } :=
  s.reachGroups_eq _

/-! ## Kernels -/

/-- A change that keeps identities is found where it was made. -/
theorem State.kern?_modKern_self (s : State) (k : Nat) (f : Kern → Kern) (hf : ∀ x : Kern, x.kid = k → (f x).kid = k) :
    (s.modKern k f).kern? k = (s.kern? k).map f := by
  unfold State.kern? State.modKern
  induction s.kerns with
  | nil => rfl
  | cons x l ih =>
    by_cases h : x.kid = k
    · simp [h, hf x h]
    · simpa [List.find?_cons, h] using ih

/-- A change of one kernel leaves another alone. -/
theorem State.kern?_modKern_ne (s : State) (k j : Nat) (f : Kern → Kern) (h : j ≠ k) (hf : ∀ x : Kern, x.kid = k → (f x).kid = k) :
    (s.modKern k f).kern? j = s.kern? j := by
  unfold State.kern? State.modKern
  induction s.kerns with
  | nil => rfl
  | cons x l ih =>
    by_cases hx : x.kid = k
    · have h1 : (f x).kid ≠ j := by rw [hf x hx]; exact Ne.symm h
      have h2 : x.kid ≠ j := by rw [hx]; exact Ne.symm h
      simpa [List.find?_cons, hx, h1, h2, Ne.symm h] using ih
    · by_cases hj : x.kid = j
      · simp [hj, h]
      · simpa [List.find?_cons, hx, hj] using ih

/-- The kernel found under an identity has it. -/
theorem State.kid_of_kern? (s : State) (k : Nat) (x : Kern) (h : s.kern? k = some x) : x.kid = k := by
  have := List.find?_some h
  simpa using this

@[simp] theorem State.kern_of_kern? (s : State) (k : Nat) (x : Kern) (h : s.kern? k = some x) : s.kern k = x := by
  simp [State.kern, h]

/-- The kernel after its change. -/
theorem State.kern_modKern_self (s : State) (k : Nat) (f : Kern → Kern) (x : Kern) (h : s.kern? k = some x)
    (hf : ∀ y : Kern, y.kid = k → (f y).kid = k) : (s.modKern k f).kern k = f x := by
  simp [State.kern, s.kern?_modKern_self k f hf, h]

/-- Another kernel after a change. -/
theorem State.kern_modKern_ne (s : State) (k j : Nat) (f : Kern → Kern) (h : j ≠ k)
    (hf : ∀ y : Kern, y.kid = k → (f y).kid = k) : (s.modKern k f).kern j = s.kern j := by
  simp [State.kern, s.kern?_modKern_ne k j f h hf]

/-! ## Cores and contexts -/

/-- A core reads as it was left, whether or not it is in its idle state. -/
theorem State.core_modCore_ne (s : State) (c j : Nat) (f : Core → Core) (h : j ≠ c) : (s.modCore c f).core j = s.core j :=
  Tab.get_put_ne Core.idle s.cores c j _ h

/-- Another context after a change. -/
theorem State.context_modCtx_ne (s : State) (c j : Nat) (f : Ctx → Ctx) (h : j ≠ c) :
    (s.modCtx c f).context j = s.context j :=
  Tab.get_put_ne Ctx.reset s.ctxs c j _ h

/-- A context after its change, in a state whose table of contexts is in canonical form. -/
theorem State.context_modCtx_self (s : State) (c : Nat) (f : Ctx → Ctx) (h : Tab.wf Ctx.reset s.ctxs = true) :
    (s.modCtx c f).context c = f (s.context c) :=
  Tab.get_put_self Ctx.reset s.ctxs c _ h

/-- A core after its change, in a state whose table of cores is in canonical form. -/
theorem State.core_modCore_self (s : State) (c : Nat) (f : Core → Core) (h : Tab.wf Core.idle s.cores = true) :
    (s.modCore c f).core c = f (s.core c) :=
  Tab.get_put_self Core.idle s.cores c _ h

/-! ## Groups, queues, ports -/

/-- Another group after a change. -/
theorem State.pan_modPan_ne (s : State) (g j : Nat) (f : Pan → Pan) (h : j ≠ g) : (s.modPan g f).pan j = s.pan j :=
  Tab.get_put_ne Pan.reset s.pans g j _ h

/-- A group after its change, in a state whose table of groups is in canonical form. -/
theorem State.pan_modPan_self (s : State) (g : Nat) (f : Pan → Pan) (h : Tab.wf Pan.reset s.pans = true) :
    (s.modPan g f).pan g = f (s.pan g) :=
  Tab.get_put_self Pan.reset s.pans g _ h

/-- Another queue after a change. -/
theorem State.queue_modQueue_ne (s : State) (q j : Nat) (f : Queue → Queue) (h : j ≠ q) : (s.modQueue q f).queue j = s.queue j :=
  Tab.get_put_ne Queue.reset s.queues q j _ h

/-- A queue after its change, in a state whose table of queues is in canonical form. -/
theorem State.queue_modQueue_self (s : State) (q : Nat) (f : Queue → Queue) (h : Tab.wf Queue.reset s.queues = true) :
    (s.modQueue q f).queue q = f (s.queue q) :=
  Tab.get_put_self Queue.reset s.queues q _ h

/-- Another link port after a change. -/
theorem State.lport_modLport_ne (s : State) (p j : Nat) (f : LinkPort → LinkPort) (h : j ≠ p) : (s.modLport p f).lport j = s.lport j :=
  Tab.get_put_ne LinkPort.reset s.links p j _ h

/-- A link port after its change, in a state whose table of ports is in canonical form. -/
theorem State.lport_modLport_self (s : State) (p : Nat) (f : LinkPort → LinkPort) (h : Tab.wf LinkPort.reset s.links = true) :
    (s.modLport p f).lport p = f (s.lport p) :=
  Tab.get_put_self LinkPort.reset s.links p _ h

end Sys2Proof.Machine
end

