-- ==== Sys2Proof/Laws/Slot.lean ====
section
/-! SUPPORT. What the effects of a slot do: the sequence of effects, the commit or the stop at its end, and results in
flight. -/

namespace Sys2Proof.Machine

/-! ## Sequences of effects -/

@[simp] theorem Slot.pure_run {α : Type} (x : α) (s : State) : (pure x : Slot α) s = .ok (x, s) := rfl

/-- An effect that goes on is followed by the next one in the state it leaves. -/
theorem Slot.bind_ok {α β : Type} (f : Slot α) (g : α → Slot β) (s t : State) (x : α) (h : f s = .ok (x, t)) :
    (f >>= g) s = g x t := by
  show (StateT.bind f g) s = _
  simp [StateT.bind, h, bind, Except.bind]

/-- A stop ends the sequence. -/
theorem Slot.bind_error {α β : Type} (f : Slot α) (g : α → Slot β) (s : State) (e : Stop) (h : f s = .error e) :
    (f >>= g) s = .error e := by
  show (StateT.bind f g) s = _
  simp [StateT.bind, h, bind, Except.bind]

/-- What a sequence that goes on has gone through. -/
theorem Slot.bind_inv {α β : Type} (f : Slot α) (g : α → Slot β) (s u : State) (y : β) (h : (f >>= g) s = .ok (y, u)) :
    ∃ x t, f s = .ok (x, t) ∧ g x t = .ok (y, u) := by
  change (StateT.bind f g) s = _ at h
  cases hf : f s with
  | error e => simp [StateT.bind, hf, bind, Except.bind] at h
  | ok p => exact ⟨p.1, p.2, rfl, by simpa [StateT.bind, hf, bind, Except.bind] using h⟩

/-- What an instruction keeps of its operands leaves the kernel that issues alone. -/
@[simp] theorem State.withOpnd_cur (s : State) (n : Nat) : (s.withOpnd n).cur = s.cur := rfl
@[simp] theorem setOpnd_run (n : Nat) (s : State) : setOpnd n s = .ok ((), s.withOpnd n) := rfl
@[simp] theorem Slot.get_run (s : State) : (get : Slot State) s = .ok (s, s) := rfl
@[simp] theorem Slot.set_run (s t : State) : (set t : Slot Unit) s = .ok ((), t) := rfl
@[simp] theorem Slot.modify_run (f : State → State) (s : State) : (modify f : Slot Unit) s = .ok ((), f s) := rfl
@[simp] theorem Slot.throw_run {α : Type} (e : Stop) (s : State) : (throw e : Slot α) s = .error e := rfl
@[simp] theorem curKern_run (s : State) : curKern s = .ok (s.cur, s) := rfl
@[simp] theorem modCur_run (f : Kern → Kern) (s : State) : modCur f s = .ok ((), s.modKern s.issue.kid f) := rfl
@[simp] theorem modIssue_run (f : Issue → Issue) (s : State) : modIssue f s = .ok ((), { s with issue := f s.issue }) := rfl
@[simp] theorem trapWith_run {α : Type} (c : Nat) (v : Word) (g : Origin) (s : State) :
    (trapWith c v g : Slot α) s = .error (.trap c v g) := rfl
@[simp] theorem trapWord_run {α : Type} (c : Nat) (g : Origin) (s : State) :
    (trapWord c g : Slot α) s = .error (.trap c s.slotWord g) := rfl

/-! ## The end of a slot -/

/-- Effects that go on commit, and the next slot follows. -/
theorem State.runSlot_ok (s t : State) (f : Slot Unit) (h : f s = .ok ((), t)) : s.runSlot f = t.advanceSlot := by
  simp [State.runSlot, h]

/-- A stop discards the slot's effects. -/
theorem State.runSlot_error (s : State) (f : Slot Unit) (e : Stop) (h : f s = .error e) : s.runSlot f = s.stopSlot e := by
  simp [State.runSlot, h]

/-- A slot operation whose checks pass and whose guard holds has its own effect, in the state that the checks leave. -/
theorem State.slotOp_runs (i : Instr) (o : Op) (body : Slot Unit) (s t u : State) (h : Runs i o s t)
    (hb : body t = .ok ((), u)) : s.slotOp i o body = u.advanceSlot := by
  obtain ⟨ha, hsh, hf, hk, ho, hg, hl⟩ := h
  have hc : checkFields i o s = .ok ((), s) := by
    have h0 : checkFields i o s = (if !i.fieldsOk s.issue.slot (hdrNlit (bundleHeader s.issue.bundle)) || !(s.kern s.issue.kid).limitsOk i
        || (o.sh && !shadowArranged s.issue) || occupied (s.kern s.issue.kid) s.issue.slot then illegal else pure ()) s := rfl
    rw [h0]; simp [hf, hk, hsh, ho]
  obtain ⟨x, w, h1, h2⟩ := Slot.bind_inv _ _ _ _ _ hg
  simp only [State.slotOp, ha, if_true]
  apply State.runSlot_ok
  unfold slotBody
  rw [Slot.bind_ok _ _ _ _ _ hc, Slot.bind_ok _ _ _ _ _ h1]
  simp only [hsh]
  simp only [Bool.false_eq_true, if_false]
  rw [Slot.bind_ok _ _ _ _ _ h2]
  simp only [if_true]
  rw [Slot.bind_ok _ _ _ _ _ (Slot.get_run _)]
  simp [hl, hb]

/-- A slot operation whose checks pass and that stops is handled as the stop says. -/
theorem State.slotOp_stops (i : Instr) (o : Op) (body : Slot Unit) (s t : State) (e : Stop) (h : Runs i o s t)
    (hb : body t = .error e) : s.slotOp i o body = s.stopSlot e := by
  obtain ⟨ha, hsh, hf, hk, ho, hg, hl⟩ := h
  have hc : checkFields i o s = .ok ((), s) := by
    have h0 : checkFields i o s = (if !i.fieldsOk s.issue.slot (hdrNlit (bundleHeader s.issue.bundle)) || !(s.kern s.issue.kid).limitsOk i
        || (o.sh && !shadowArranged s.issue) || occupied (s.kern s.issue.kid) s.issue.slot then illegal else pure ()) s := rfl
    rw [h0]; simp [hf, hk, hsh, ho]
  obtain ⟨x, w, h1, h2⟩ := Slot.bind_inv _ _ _ _ _ hg
  simp only [State.slotOp, ha, if_true]
  apply State.runSlot_error
  unfold slotBody
  rw [Slot.bind_ok _ _ _ _ _ hc, Slot.bind_ok _ _ _ _ _ h1]
  simp only [hsh]
  simp only [Bool.false_eq_true, if_false]
  rw [Slot.bind_ok _ _ _ _ _ h2]
  simp only [if_true]
  rw [Slot.bind_ok _ _ _ _ _ (Slot.get_run _)]
  simp [hl, hb]

/-- A guard of p0 not inverted holds and changes nothing (03 R50). -/
theorem guardHolds_p0 (o : Op) (s : State) (h : o.pred = 0) (hp : o.pinv = false) : guardHolds o s = .ok (true, s) := by
  unfold guardHolds
  simp [h, hp]

/-! ## Results -/

@[simp] theorem fly_run (lat : Nat) (d : FDest) (latch : Bool) (fl : BitVec 5) (s : State) :
    fly lat d latch fl s = .ok ((), s.flown lat d latch fl) := rfl

/-- Without a physical fault to come, results are true (05 R112). -/
theorem resultFlips_none (s : State) (h : s.soft = []) : resultFlips s = .ok ((0, 0), s) := by
  unfold resultFlips
  rw [Slot.bind_ok _ _ _ _ _ (Slot.get_run s)]
  simp [h]

/-- A scalar result is put in flight for the register that DST names (03 R53). -/
theorem writeScalar_run (o : Op) (lat : Nat) (r : SVal) (fl : BitVec 5) (s : State) (h : s.soft = []) :
    writeScalar o lat r fl s = .ok ((), s.flown lat (.sreg (destOf o s.cur) ⟨r.v, r.tl, r.th, r.v, false⟩) true fl) := by
  unfold writeScalar
  rw [Slot.bind_ok _ _ _ _ _ (curKern_run s), Slot.bind_ok _ _ _ _ _ (resultFlips_none s h)]
  simp [destOf]

/-- A predicate result is put in flight (05 R103). -/
theorem writePred_run (o : Op) (lat : Nat) (v tag : Bool) (g : Origin) (fl : BitVec 5) (s : State) (h : s.soft = []) :
    writePred o lat v tag g fl s = .ok ((), s.flown lat
      (if o.nw then .flags else .pred o.dstIdx ⟨v, tag, if tag then g else 0, v⟩) false fl) := by
  unfold writePred
  rw [Slot.bind_ok _ _ _ _ _ (resultFlips_none s h)]
  cases o.nw <;> simp

/-- A mask result is put in flight for the bits of `sel` (07 R176). -/
theorem writeMask_run (o : Op) (lat : Nat) (v tags : Word) (g : Origin) (sel : Word) (fl : BitVec 5) (s : State)
    (h : s.soft = []) :
    writeMask o lat v tags g sel fl s = .ok ((), s.flown lat
      (if o.nw then .flags else .mask o.dstIdx ⟨v, tags, if tags = 0 then 0 else g, v⟩ sel) false fl) := by
  unfold writeMask
  rw [Slot.bind_ok _ _ _ _ _ (resultFlips_none s h)]
  cases o.nw <;> simp

/-- A vector result is put in flight for some bytes and tags of its register (07 R172). -/
theorem writeVector_run (o : Op) (lat : Nat) (v : VBits) (tags : Word) (bytes : BitVec 256) (tagm : Word) (fl : BitVec 5)
    (s : State) (h : s.soft = []) :
    writeVector o lat v tags bytes tagm fl s = .ok ((), s.flown lat
      (.vreg (if o.nw then none else some o.dst.toNat) ⟨v, tags, v⟩ bytes tagm) true fl) := by
  unfold writeVector
  rw [Slot.bind_ok _ _ _ _ _ (resultFlips_none s h)]
  simp

end Sys2Proof.Machine
end

