-- ==== Sys2Proof/Tests/Slice0.lean ====
section
/-! SUPPORT. The model's own tests: words of the manual's encodings, ill-formed terms, and for every statement a state and
operands that meet its hypotheses. -/

namespace Sys2Proof.Tests

set_option Elab.async false

open Sys2Proof Sys2Proof.Machine

/-! ## How the tests are built -/

/-- A bundle whose one slot j holds a word; the pool halfwords follow, h0 first (03 R46). -/
def bundleOf (j : Nat) (w : BitVec 48) (pool : List Nat) : BitVec 512 :=
  BitVec.ofNat 512 (2 ^ (4 + j) + 2 ^ 11 * pool.length + w.toNat * 2 ^ (32 + 48 * j) + 2 ^ 368 * packNat 16 pool)

/-- The stand-in kernel in mid-issue of an instruction in slot j, its kernel state changed by f. -/
def inSlot (j : Nat) (i : Instr) (f : Kern → Kern := id) (pool : List Nat := []) : State :=
  (State.reset.place (bundleOf j ((encode i).getD 0) pool)).modKern 0 f

/-- The stand-in kernel between bundles, changed by f. -/
def idle (f : Kern → Kern := id) : State := State.reset.withStandIn.modKern 0 f

/-- Fields of a slot operation: DST, SRCA, SRCB, MOD. -/
def op (dst : BitVec 7) (a b m : BitVec 8) : Op := { (default : Op) with dst := dst, a := a, b := b, m := m }

/-- A slot operation that answers this value in this state. -/
def okIs {α : Type} [DecidableEq α] (f : Slot α) (s : State) (x : α) (t : State) : Bool :=
  match f s with
  | .ok (y, u) => decide (y = x) && decide (u = t)
  | .error _ => false

theorem reads_of {α : Type} [DecidableEq α] {f : Slot α} {s t : State} {x : α} (h : okIs f s x t = true) : Reads f s x t := by
  unfold okIs at h
  split at h
  · simp only [Bool.and_eq_true, decide_eq_true_eq] at h
    obtain ⟨rfl, rfl⟩ := h
    assumption
  · cases h

/-- `Runs`, evaluated. -/
def runsIs (i : Instr) (o : Op) (s t : State) : Bool :=
  s.issue.active && !o.sh && i.fieldsOk s.issue.slot (hdrNlit (bundleHeader s.issue.bundle))
    && (s.kern s.issue.kid).limitsOk i && !occupied (s.kern s.issue.kid) s.issue.slot && okIs (do occupy i; guardHolds o) s true t
    && !writesLent (t.kern t.issue.kid) i t.issue.slot o

theorem runs_of {i : Instr} {o : Op} {s t : State} (h : runsIs i o s t = true) : Runs i o s t := by
  simp only [runsIs, Bool.and_eq_true, Bool.not_eq_true', and_assoc] at h
  rcases h with ⟨ha, hs, hf, hl, ho, hr, hw⟩
  exact ⟨ha, hs, hf, hl, ho, reads_of hr, hw⟩

/-- `State.FewOrigins`, evaluated. -/
def isFew (t : State) : Bool := match t.cur.seg with | some g => decide (g.origins.length ≤ 16) | none => true

theorem few_of {t : State} (h : isFew t = true) : t.FewOrigins := by
  intro g hg
  simpa [isFew, hg] using h

/-- `Computes`, evaluated. -/
def computesIs {α : Type} [DecidableEq α] (x : Arith α) (n : Nat) (s : State) (r : α) (fl : BitVec 5) (t : State) : Bool :=
  decide (s.carryOut n x = (r, fl, t)) && isFew t

theorem computes_of {α : Type} [DecidableEq α] {x : Arith α} {n : Nat} {s t : State} {r : α} {fl : BitVec 5}
    (h : computesIs x n s r fl t = true) : Computes x n s r fl t := by
  simp only [computesIs, Bool.and_eq_true, decide_eq_true_eq] at h
  exact ⟨h.1, few_of h.2⟩

/-- Arithmetic that completes with no physical fault to strike. -/
def computesB {α : Type} (x : Arith α) (n : Nat) (s : State) : Bool :=
  let t := (s.carryOut n x).2.2
  t.soft.isEmpty && isFew t

theorem computes_ex {α : Type} {x : Arith α} {n : Nat} {s : State} (h : computesB x n s = true) :
    ∃ (r : α) (fl : BitVec 5) (t : State), Computes x n s r fl t ∧ t.soft = [] := by
  simp only [computesB, Bool.and_eq_true] at h
  exact ⟨_, _, _, ⟨rfl, few_of h.2⟩, List.isEmpty_iff.mp h.1⟩

/-! ## Ill-formed terms, one for each check (03 R48-R53, R63, R141) -/

/-- A MOV in S0, well formed: sa3 from sa4 at 64 bits. -/
def movOk : Op := op 3 0x04 0 1

theorem test_wf_ok : (Instr.mov movOk).fieldsOk 1 0 = true := by decide
theorem test_wf_event : (Instr.bundleIssue 0).fieldsOk 0 0 = false := by decide
theorem test_wf_class : (Instr.mov movOk).fieldsOk 3 0 = false := by decide
theorem test_wf_s1only : (Instr.mfs (op 3 0 0 0)).fieldsOk 1 0 = false := by decide
theorem test_wf_shadow : (Instr.psan { op 3 4 4 0 with sh := true }).fieldsOk 1 0 = false := by decide
theorem test_wf_pinv : (Instr.mov { movOk with pinv := true }).fieldsOk 1 0 = false := by decide
theorem test_wf_unguarded : (Instr.halt { op 0 0 0 0 with pred := 1 }).fieldsOk 0 0 = false := by decide
theorem test_wf_nw_dst : (Instr.mov { movOk with nw := true }).fieldsOk 1 0 = false := by decide
theorem test_wf_bank : (Instr.mov (op 0b0100011 0x04 0 1)).fieldsOk 1 0 = false := by decide
theorem test_wf_no_dest : (Instr.pchk (op 3 0x04 0 0)).fieldsOk 1 0 = false := by decide
theorem test_wf_no_dest_nw : (Instr.pchk { op 0 0x04 0 0 with nw := true }).fieldsOk 1 0 = false := by decide
theorem test_wf_source_unused : (Instr.mov (op 3 0x04 1 1)).fieldsOk 1 0 = false := by decide
theorem test_wf_source_selector : (Instr.mov (op 3 0xFF 0 1)).fieldsOk 1 0 = false := by decide
theorem test_wf_source_literal : (Instr.mov (op 3 0x90 0 1)).fieldsOk 1 0 = false ∧ (Instr.mov (op 3 0x90 0 1)).fieldsOk 1 1 = true := by decide
theorem test_wf_modifier : (Instr.cmp (op 3 4 4 0x18)).fieldsOk 1 0 = false := by decide
theorem test_wf_header_reserved : headerOk 0x8000 = false := by decide +kernel
theorem test_wf_header_nlit : headerOk 0x5000 = false := by decide +kernel
theorem test_wf_header_ypt : headerOk 0x8 = false := by decide +kernel

/-! ## Words of the manual's encoding tables -/

/-- The fields of the words below: SH, PINV and NW set, PRED 10, DST 37, SRCA 0x12, SRCB 0x34, MOD 0x54. -/
def opT : Op := ⟨true, true, 10, 37, true, 0x12, 0x34, 0x54⟩

/-- The same with SRCA and MOD given. -/
def opAM (a m : BitVec 8) : Op := { opT with a := a, m := m }

/-- A word of every operation of class C, its fields laid out by 03 R49, its opcode from 03 R65-R69. -/
def wordsC : List (Nat × BitVec 48 × Instr) :=
  [(0, 0x003A_4B12_3454, .nop opT),
   (0, 0x083A_4B12_3454, .sync opT),
   (0, 0x0C3A_4B12_3454, .trap opT),
   (0, 0x007A_4B12_3454, .br opT),
   (0, 0x087A_4B12_3454, .yield opT),
   (0, 0x0C7A_4B12_3454, .rft opT),
   (0, 0x00BA_4B12_3454, .jmp opT),
   (0, 0x08BA_4B12_3454, .waitx opT),
   (0, 0x0CBA_4B12_3454, .brk opT),
   (0, 0x00FA_4B12_3454, .call opT),
   (0, 0x08FA_4B12_3454, .waito opT),
   (0, 0x0CFA_4B12_3454, .halt opT),
   (0, 0x013A_4B12_3454, .callr opT),
   (0, 0x093A_4B12_3454, .waitb opT),
   (0, 0x0D3A_4B12_3454, .qpost opT),
   (0, 0x017A_4B12_3454, .ret opT),
   (0, 0x097A_4B12_3454, .fenceFull opT),
   (0, 0x097A_4B12_3455, .fenceStore (opAM 0x12 0x55)),
   (0, 0x097A_4B12_3456, .fenceLoad (opAM 0x12 0x56)),
   (0, 0x0D7A_4B12_3454, .cuienOff opT),
   (0, 0x0D7A_4B12_3455, .cuienOn (opAM 0x12 0x55)),
   (0, 0x043A_4B12_3454, .loop opT),
   (0, 0x09BA_4B12_3454, .ifence opT),
   (0, 0x047A_4B12_3454, .lbrk opT),
   (0, 0x09FA_4B12_3454, .bswp opT)]

theorem test_decode_wordsC : ∀ e ∈ wordsC, decodeSlot e.1 e.2.1 = .ok e.2.2 := by decide +kernel

/-- A word of every operation of class S, opcodes 0x000-0x01D, its fields laid out by 03 R49, its opcode from 03 R65-R69. -/
def wordsS0 : List (Nat × BitVec 48 × Instr) :=
  [(2, 0x003A_4B12_3454, .add opT),
   (2, 0x033A_4B12_3454, .andn opT),
   (2, 0x063A_4B12_3454, .bins opT),
   (2, 0x11FA_4B12_3454, .fmin opT),
   (2, 0x007A_4B12_3454, .sub opT),
   (2, 0x037A_4B12_3454, .shl opT),
   (2, 0x067A_4B12_3454, .sel opT),
   (2, 0x123A_4B12_3454, .fmax opT),
   (2, 0x00BA_4B12_3454, .mul opT),
   (2, 0x03BA_4B12_3454, .shr opT),
   (2, 0x06BA_4B12_3454, .mov opT),
   (2, 0x127A_4B12_3454, .fcmp opT),
   (2, 0x00FA_4B12_3454, .mulh opT),
   (2, 0x03FA_4B12_3454, .sar opT),
   (2, 0x06FA_4B12_3454, .cmp opT),
   (2, 0x12BA_4B12_3454, .fcvt opT),
   (2, 0x013A_4B12_3454, .mulhn opT),
   (2, 0x043A_4B12_3454, .rot opT),
   (2, 0x073A_4B12_3454, .plog opT),
   (2, 0x12FA_4B12_3454, .fclass opT),
   (2, 0x017A_4B12_3454, .div opT),
   (2, 0x047A_4B12_3454, .min opT),
   (2, 0x077A_4B12_3454, .sext opT),
   (2, 0x133A_4B12_3454, .fsgn opT),
   (2, 0x01BA_4B12_3454, .divn opT),
   (2, 0x04BA_4B12_3454, .max opT),
   (2, 0x103A_4B12_3454, .fadd opT),
   (2, 0x183A_4B12_3454, .ptest opT),
   (2, 0x01FA_4B12_3454, .rem opT),
   (2, 0x04FA_4B12_3454, .minn opT)]

theorem test_decode_wordsS0 : ∀ e ∈ wordsS0, decodeSlot e.1 e.2.1 = .ok e.2.2 := by decide +kernel

/-- A word of every operation of class S, opcodes 0x040-0x085, its fields laid out by 03 R49, its opcode from 03 R65-R69. -/
def wordsS1 : List (Nat × BitVec 48 × Instr) :=
  [(2, 0x107A_4B12_3454, .fsub opT),
   (2, 0x187A_4B12_3454, .porig opT),
   (2, 0x023A_4B12_3454, .remn opT),
   (2, 0x053A_4B12_3454, .maxn opT),
   (2, 0x10BA_4B12_3454, .fmul opT),
   (2, 0x18BA_4B12_3454, .pchk opT),
   (2, 0x027A_4B12_3454, .and opT),
   (2, 0x057A_4B12_3454, .clz opT),
   (2, 0x10FA_4B12_3454, .ffma opT),
   (2, 0x18FA_4B12_3454, .psan opT),
   (2, 0x02BA_4B12_3454, .or opT),
   (2, 0x05BA_4B12_3454, .popc opT),
   (2, 0x113A_4B12_3454, .ffms opT),
   (2, 0x193A_4B12_3454, .chkeq opT),
   (2, 0x02FA_4B12_3454, .xor opT),
   (2, 0x05FA_4B12_3454, .bext opT),
   (2, 0x117A_4B12_3454, .fdiv opT),
   (2, 0x203A_4B12_3454, .mfs opT),
   (2, 0x11BA_4B12_3454, .fsqrt opT),
   (2, 0x207A_4B12_3454, .mts opT),
   (2, 0x20BA_4B12_3454, .mld opT),
   (2, 0x20FA_4B12_3454, .mst opT),
   (2, 0x213A_4B12_3454, .amo opT),
   (2, 0x217A_4B12_3454, .red opT)]

theorem test_decode_wordsS1 : ∀ e ∈ wordsS1, decodeSlot e.1 e.2.1 = .ok e.2.2 := by decide +kernel

/-- A word of every operation of class V, opcodes 0x000-0x02B, its fields laid out by 03 R49, its opcode from 03 R65-R69. -/
def wordsV0 : List (Nat × BitVec 48 × Instr) :=
  [(3, 0x003A_4B12_3454, .vadd opT),
   (3, 0x033A_4B12_3454, .vmin opT),
   (3, 0x097A_4B12_3454, .vxor opT),
   (3, 0x14FA_4B12_3454, .vbcast opT),
   (3, 0x007A_4B12_3454, .vsub opT),
   (3, 0x037A_4B12_3454, .vmax opT),
   (3, 0x09BA_4B12_3454, .vshl opT),
   (3, 0x153A_4B12_3454, .vext opT),
   (3, 0x00BA_4B12_3454, .vmul opT),
   (3, 0x03BA_4B12_3454, .vsgn opT),
   (3, 0x09FA_4B12_3454, .vshr opT),
   (3, 0x157A_4B12_3454, .vins opT),
   (3, 0x00FA_4B12_3454, .vfma opT),
   (3, 0x03FA_4B12_3454, .vcmp opT),
   (3, 0x0A3A_4B12_3454, .vsar opT),
   (3, 0x183A_4B12_3454, .mlog opT),
   (3, 0x013A_4B12_3454, .vfms opT),
   (3, 0x043A_4B12_3454, .vsel opT),
   (3, 0x0A7A_4B12_3454, .vimin opT),
   (3, 0x187A_4B12_3454, .mpop opT),
   (3, 0x017A_4B12_3454, .vfnma opT),
   (3, 0x047A_4B12_3454, .vclass opT),
   (3, 0x0ABA_4B12_3454, .vimax opT),
   (3, 0x18BA_4B12_3454, .mfirst opT),
   (3, 0x01BA_4B12_3454, .vdiv opT),
   (3, 0x083A_4B12_3454, .viadd opT),
   (3, 0x0AFA_4B12_3454, .vicmp opT),
   (3, 0x1C3A_4B12_3454, .vld opT),
   (3, 0x01FA_4B12_3454, .vsqrt opT),
   (3, 0x087A_4B12_3454, .visub opT)]

theorem test_decode_wordsV0 : ∀ e ∈ wordsV0, decodeSlot e.1 e.2.1 = .ok e.2.2 := by decide +kernel

/-- A word of every operation of class V, opcodes 0x040-0x082, its fields laid out by 03 R49, its opcode from 03 R65-R69. -/
def wordsV1 : List (Nat × BitVec 48 × Instr) :=
  [(3, 0x103A_4B12_3454, .vcvt opT),
   (3, 0x1C7A_4B12_3454, .vst opT),
   (3, 0x023A_4B12_3454, .vrcp opT),
   (3, 0x08BA_4B12_3454, .vimul opT),
   (3, 0x107A_4B12_3454, .vqnt opT),
   (3, 0x1CBA_4B12_3454, .accrd opT),
   (3, 0x027A_4B12_3454, .vrsq opT),
   (3, 0x08FA_4B12_3454, .vand opT),
   (3, 0x10BA_4B12_3454, .vdqt opT),
   (3, 0x1CFA_4B12_3454, .accwr opT),
   (3, 0x02BA_4B12_3454, .vexp2 opT),
   (3, 0x093A_4B12_3454, .vor opT),
   (3, 0x143A_4B12_3454, .vred opT),
   (3, 0x1D3A_4B12_3454, .vmov opT),
   (3, 0x02FA_4B12_3454, .vlog2 opT),
   (3, 0x147A_4B12_3454, .vscan opT),
   (3, 0x203A_4B12_3454, .vptest opT),
   (3, 0x14BA_4B12_3454, .vperm opT),
   (3, 0x207A_4B12_3454, .vpchk opT),
   (3, 0x20BA_4B12_3454, .vpsan opT)]

theorem test_decode_wordsV1 : ∀ e ∈ wordsV1, decodeSlot e.1 e.2.1 = .ok e.2.2 := by decide +kernel

/-- A word of every operation of class M and E, its fields laid out by 03 R49, its opcode from 03 R65-R69. -/
def wordsE : List (Nat × BitVec 48 × Instr) :=
  [(5, 0x007A_4B12_3454, .mma opT),
   (5, 0x01FA_4B12_3454, .accz opT),
   (5, 0x00BA_4B12_3454, .mmag opT),
   (5, 0x023A_4B12_3454, .accst opT),
   (5, 0x00FA_4B12_3454, .mconv opT),
   (5, 0x027A_4B12_3454, .accld opT),
   (5, 0x013A_4B12_3454, .gset opT),
   (5, 0x02BA_4B12_3454, .lend opT),
   (5, 0x02BA_4B92_3454, .lendRet (opAM 0x92 0x54)),
   (5, 0x017A_4B12_3454, .cset opT),
   (5, 0x02FA_4B12_3454, .mwait opT),
   (5, 0x01BA_4B12_3454, .wld opT),
   (6, 0x003A_4B12_3454, .ewr opT),
   (6, 0x01FA_4B12_3454, .trd opT),
   (6, 0x007A_4B12_3401, .egoCopy (opAM 0x12 0x01)),
   (6, 0x007A_4B12_3410, .egoMerge (opAM 0x12 0x10)),
   (6, 0x007A_4B12_3411, .egoInter (opAM 0x12 0x11)),
   (6, 0x007A_4B12_3412, .egoExpand (opAM 0x12 0x12)),
   (6, 0x007A_4B12_3413, .egoHist (opAM 0x12 0x13)),
   (6, 0x007A_4B12_3414, .egoPsum (opAM 0x12 0x14)),
   (6, 0x007A_4B12_3415, .egoHbuild (opAM 0x12 0x15)),
   (6, 0x007A_4B12_3416, .egoHprobe (opAM 0x12 0x16)),
   (6, 0x007A_4B12_3417, .egoRules (opAM 0x12 0x17)),
   (6, 0x007A_4B12_3418, .egoNnz (opAM 0x12 0x18)),
   (6, 0x007A_4B12_3420, .egoCload (opAM 0x12 0x20)),
   (6, 0x007A_4B12_3421, .egoEval (opAM 0x12 0x21)),
   (6, 0x007A_4B12_3422, .egoPupd (opAM 0x12 0x22)),
   (6, 0x007A_4B12_3423, .egoPflip (opAM 0x12 0x23)),
   (6, 0x007A_4B12_3424, .egoCstat (opAM 0x12 0x24)),
   (6, 0x007A_4B12_3430, .egoLsend (opAM 0x12 0x30)),
   (6, 0x007A_4B12_3431, .egoLrecv (opAM 0x12 0x31)),
   (6, 0x007A_4B12_3432, .egoLradd (opAM 0x12 0x32)),
   (6, 0x023A_4B12_3454, .fmtset opT),
   (6, 0x00BA_4B12_3454, .erd opT),
   (6, 0x027A_4B12_3454, .spat opT),
   (6, 0x00FA_4B12_3454, .ownGive opT),
   (6, 0x00FA_4B12_345C, .ownTake (opAM 0x12 0x5C)),
   (6, 0x02BA_4B12_3454, .srst opT),
   (6, 0x02BA_4B12_345C, .srstClr (opAM 0x12 0x5C)),
   (6, 0x013A_4B12_3454, .xsend opT),
   (6, 0x02FA_4B12_3454, .bwph opT),
   (6, 0x017A_4B12_3454, .xrecv opT),
   (6, 0x033A_4B12_3450, .bpwrRetain (opAM 0x12 0x50)),
   (6, 0x033A_4B12_3454, .bpwrWake opT),
   (6, 0x01BA_4B12_3454, .tdef opT)]

theorem test_decode_wordsE : ∀ e ∈ wordsE, decodeSlot e.1 e.2.1 = .ok e.2.2 := by decide +kernel

/-! ## Hypotheses of the statements, met: scalar operations -/

/-- Scalar registers set. -/
def withRegs (l : List (Nat × Reg)) (k : Kern) : Kern := { k with regs := l.foldl (fun t e => Tab.put Reg.zero t e.1 e.2) k.regs }

/-- A predicate set. -/
def withPred (n : Nat) (p : PredReg) (k : Kern) : Kern := { k with preds := Tab.put PredReg.clear k.preds n p }

/-- sa4 is 7 and sa5 poison with origin 9. -/
def setRegs : Kern → Kern := withRegs [(4, Reg.ofWord 7), (5, Reg.tagged true 9), (6, Reg.ofWord 9)]

/-- An operation of two sources runs in s and its sources are a and b. -/
def Hyp2 (i : Instr) (o : Op) (s : State) (a b : SVal) : Prop :=
  Runs i o s s ∧ Reads (readWidth o.w o.a) s a s ∧ Reads (readWidth o.w o.b) s b s ∧ s.soft = []

/-- An operation of one source runs in s and its source is a. -/
def Hyp1 (i : Instr) (o : Op) (s : State) (a : SVal) : Prop :=
  Runs i o s s ∧ Reads (readWidth o.w o.a) s a s ∧ s.soft = []

theorem hyp2_of {i : Instr} {o : Op} {s : State} {a b : SVal} (h : (runsIs i o s s && okIs (readWidth o.w o.a) s a s
    && okIs (readWidth o.w o.b) s b s && s.soft.isEmpty) = true) : Hyp2 i o s a b := by
  simp only [Bool.and_eq_true, List.isEmpty_iff] at h
  exact ⟨runs_of h.1.1.1, reads_of h.1.1.2, reads_of h.1.2, h.2⟩

theorem hyp1_of {i : Instr} {o : Op} {s : State} {a : SVal} (h : (runsIs i o s s && okIs (readWidth o.w o.a) s a s
    && s.soft.isEmpty) = true) : Hyp1 i o s a := by
  simp only [Bool.and_eq_true, List.isEmpty_iff] at h
  exact ⟨runs_of h.1.1, reads_of h.1.2, h.2⟩

/-- Fields of a two-source operation in S0: sa3, sa4, sa6, at 64 bits. -/
def op346 : Op := op 3 4 6 1
/-- The same with the tagged sa5. -/
def op356 : Op := op 3 5 6 1

theorem test_hyp_IntegerResults :
    Hyp2 (.add op346) op346 (inSlot 1 (.add op346) setRegs) (SVal.plain 7) (SVal.plain 9)
    ∧ Hyp1 (.mov (op 3 4 0 1)) (op 3 4 0 1) (inSlot 1 (.mov (op 3 4 0 1)) setRegs) (SVal.plain 7)
    ∧ Hyp1 (.sext (op 3 4 0 5)) (op 3 4 0 5) (inSlot 1 (.sext (op 3 4 0 5)) setRegs) (SVal.plain 7)
    ∧ Hyp2 (.bext (op 3 4 6 5)) (op 3 4 6 5) (inSlot 1 (.bext (op 3 4 6 5)) setRegs) (SVal.plain 7) (SVal.plain 9)
    ∧ (Hyp2 (.bins (op 3 4 6 5)) (op 3 4 6 5) (inSlot 1 (.bins (op 3 4 6 5)) setRegs) (SVal.plain 7) (SVal.plain 9)
      ∧ Reads (readDest (op 3 4 6 5) true) (inSlot 1 (.bins (op 3 4 6 5)) setRegs) SVal.zero (inSlot 1 (.bins (op 3 4 6 5)) setRegs)) :=
  ⟨hyp2_of (by decide +kernel), hyp1_of (by decide +kernel), hyp1_of (by decide +kernel), hyp2_of (by decide +kernel),
    hyp2_of (by decide +kernel), reads_of (by decide +kernel)⟩

theorem test_hyp_TaggedIntegerSources :
    (Hyp2 (.add op356) op356 (inSlot 1 (.add op356) setRegs) ⟨9, true, true⟩ (SVal.plain 9)
      ∧ mergePoison [(SVal.mk 9 true true).org?, (SVal.plain 9).org?] = some 9)
    ∧ Hyp1 (.clz (op 3 5 0 1)) (op 3 5 0 1) (inSlot 1 (.clz (op 3 5 0 1)) setRegs) ⟨9, true, true⟩ :=
  ⟨⟨hyp2_of (by decide +kernel), by decide +kernel⟩, hyp1_of (by decide +kernel)⟩

/-- SEL by p1: sa3, sa4, sa6, at 64 bits. -/
def opSel : Op := op 3 4 6 3

theorem test_hyp_SelectsMovesAndConditions :
    (Hyp2 (.sel opSel) opSel (inSlot 1 (.sel opSel) setRegs) (SVal.plain 7) (SVal.plain 9)
      ∧ Reads (readPred opSel.m41) (inSlot 1 (.sel opSel) setRegs) PredReg.clear (inSlot 1 (.sel opSel) setRegs))
    ∧ (let s := inSlot 1 (.sel opSel) (withPred 1 ⟨false, true, 3, false⟩)
      Runs (.sel opSel) opSel s s ∧ Reads (readPred opSel.m41) s ⟨false, true, 3, false⟩ s
        ∧ mergePoison [some 3, SVal.zero.org?, SVal.zero.org?] = some 3)
    ∧ (Hyp2 (.cmp op346) op346 (inSlot 1 (.cmp op346) setRegs) (SVal.plain 7) (SVal.plain 9) ∧ op346.nw = false)
    ∧ Hyp2 (.cmp op356) op356 (inSlot 1 (.cmp op356) setRegs) ⟨9, true, true⟩ (SVal.plain 9)
    ∧ (let o := op 3 1 2 0
      let s := inSlot 1 (.plog o)
      Runs (.plog o) o s s ∧ Reads (readPredField o.a) s PredReg.clear s ∧ Reads (readPredField o.b) s PredReg.clear s ∧ o.m41 < 8)
    ∧ (let o := op 3 1 2 14
      let s := inSlot 1 (.plog o) (withPred 1 (.poisoned 3))
      Runs (.plog o) o s s ∧ Reads (readPredField o.a) s (.poisoned 3) s ∧ Reads (readPredField o.b) s PredReg.clear s ∧ o.m41 < 8
        ∧ mergePoison [(PredReg.poisoned 3).origin?, PredReg.clear.origin?] = some 3)
    ∧ (let o := { op 0 1 0 18 with nw := true }
      let s := inSlot 1 (.plog o) (withPred 1 (.poisoned 3))
      Runs (.plog o) o s s ∧ Reads (readPredField o.a) s (.poisoned 3) s ∧ s.soft = [] ∧ o.m41 = 9) :=
  ⟨⟨hyp2_of (by decide +kernel), reads_of (by decide +kernel)⟩,
    ⟨runs_of (by decide +kernel), reads_of (by decide +kernel), by decide +kernel⟩,
    ⟨hyp2_of (by decide +kernel), by decide⟩, hyp2_of (by decide +kernel),
    ⟨runs_of (by decide +kernel), reads_of (by decide +kernel), reads_of (by decide +kernel), by decide⟩,
    ⟨runs_of (by decide +kernel), reads_of (by decide +kernel), reads_of (by decide +kernel), by decide, by decide +kernel⟩,
    runs_of (by decide +kernel), reads_of (by decide +kernel), rfl, by decide⟩

/-- 1.0 and 2.0 in binary64. -/
def one64 : Word := 0x3FF0_0000_0000_0000
def two64 : Word := 0x4000_0000_0000_0000
def fpRegs : Kern → Kern := withRegs [(3, Reg.ofWord one64), (4, Reg.ofWord one64), (6, Reg.ofWord two64)]

theorem test_hyp_FloatingPointResults :
    (let s := inSlot 1 (.fadd op346) fpRegs
     Hyp2 (.fadd op346) op346 s (SVal.plain one64) (SVal.plain two64)
      ∧ Computes (fpAdd 0 (fpOperand .f64 (SVal.plain one64)) (fpOperand .f64 (SVal.plain two64)) >>= fun r => roundTo .f64 r 0 false)
          (operandBits [SVal.plain one64, SVal.plain two64]) s (.bits 0x4008_0000_0000_0000) 0 s)
    ∧ (let s := inSlot 1 (.ffma op346) fpRegs
      Hyp2 (.ffma op346) op346 s (SVal.plain one64) (SVal.plain two64)
      ∧ Reads (readDest op346 true) s (SVal.plain one64) s
      ∧ Computes (fpFma 0 (fpOperand .f64 (SVal.plain one64)) (fpOperand .f64 (SVal.plain two64))
            (fpOperand .f64 (SVal.plain one64)) >>= fun r => roundTo .f64 r 0 false)
          (operandBits [SVal.plain one64, SVal.plain two64, SVal.plain one64]) s (.bits 0x4008_0000_0000_0000) 0 s)
    ∧ (let o := op 3 4 0 1
      let s := inSlot 1 (.fsqrt o) fpRegs
      Hyp1 (.fsqrt o) o s (SVal.plain one64)
      ∧ Computes (fpSqrt (fpOperand .f64 (SVal.plain one64)) >>= fun r => roundTo .f64 r 0 false) (operandBits [SVal.plain one64]) s
          (.bits one64.toNat) 0 s)
    ∧ (let o := op 3 4 0 0
      let s := inSlot 1 (.fcvt o) fpRegs
      Runs (.fcvt o) o s s ∧ Reads (readWidth ((fcvtPair 0).2.w == 64) o.a) s (SVal.plain one64) s
      ∧ Computes (roundTo (fcvtPair 0).1 (fpOperand (fcvtPair 0).2 (SVal.plain one64)) 0 false) one64.toNat s (.bits 0x3F80_0000) 0 s) :=
  ⟨⟨hyp2_of (by decide +kernel), computes_of (by decide +kernel)⟩,
    ⟨hyp2_of (by decide +kernel), reads_of (by decide +kernel), computes_of (by decide +kernel)⟩,
    ⟨hyp1_of (by decide +kernel), computes_of (by decide +kernel)⟩,
    runs_of (by decide +kernel), reads_of (by decide +kernel), computes_of (by decide +kernel)⟩

theorem isNumber_of {d : Bool} {x : SVal} (h : decide (classBit d x.tagged x.v.toNat < 8) = true) : x.isNumber d := by
  unfold SVal.isNumber; exact of_decide_eq_true h
theorem atOrBelow_of {d : Bool} {a b : Nat}
    (h : decide (numKey d a < numKey d b ∨ (numKey d a = numKey d b ∧ signField d a = true)) = true) : atOrBelow d a b := by
  unfold atOrBelow; exact of_decide_eq_true h
theorem above_of {d : Bool} {a b : Nat}
    (h : decide (numKey d a < numKey d b ∨ (numKey d a = numKey d b ∧ signField d a = true)) = false) : ¬ atOrBelow d a b := by
  unfold atOrBelow; exact of_decide_eq_false h

/-- Two numbers, and poison with a number, at an operation of two sources. -/
theorem test_hyp_ComparisonsSignsAndClasses :
    (let s := inSlot 1 (.fmin op346) fpRegs
     Hyp2 (.fmin op346) op346 s (SVal.plain one64) (SVal.plain two64) ∧ s.FewOrigins
      ∧ (SVal.plain one64).isNumber true ∧ (SVal.plain two64).isNumber true
      ∧ atOrBelow true one64.toNat two64.toNat ∧ ¬ atOrBelow true two64.toNat one64.toNat
      ∧ atOrBelow true (2 ^ 63) 0 ∧ ¬ atOrBelow true 0 (2 ^ 63))
    ∧ (let s := inSlot 1 (.fmax op356) setRegs
      Hyp2 (.fmax op356) op356 s ⟨9, true, true⟩ (SVal.plain 9)
      ∧ ∃ w, Merges s (9 + 2 ^ 64 * 9) [fpOperand .f64 ⟨9, true, true⟩, fpOperand .f64 (SVal.plain 9)] 9 w ∧ w.FewOrigins)
    ∧ (Hyp2 (.fsgn op346) op346 (inSlot 1 (.fsgn op346) fpRegs) (SVal.plain one64) (SVal.plain two64)
      ∧ ∀ i < 64, one64.getLsbD i = (if i = 63 then two64.getLsbD i else decide (i < 64) && one64.getLsbD i))
    ∧ Hyp2 (.fcmp op346) op346 (inSlot 1 (.fcmp op346) fpRegs) (SVal.plain one64) (SVal.plain two64)
    ∧ Hyp1 (.fclass (op 3 4 0 1)) (op 3 4 0 1) (inSlot 1 (.fclass (op 3 4 0 1)) fpRegs) (SVal.plain one64) :=
  ⟨⟨hyp2_of (by decide +kernel), few_of (by decide +kernel), isNumber_of (by decide +kernel), isNumber_of (by decide +kernel),
      atOrBelow_of (by decide +kernel), above_of (by decide +kernel), atOrBelow_of (by decide +kernel), above_of (by decide +kernel)⟩,
    ⟨hyp2_of (by decide +kernel), _, ⟨by decide +kernel, rfl⟩, few_of (by decide +kernel)⟩,
    ⟨hyp2_of (by decide +kernel), by decide +kernel⟩, hyp2_of (by decide +kernel), hyp1_of (by decide +kernel)⟩

/-- The class numbers at the edges of binary32: the largest subnormal and the least normal, infinity, poison and a foreign NaN. -/
theorem test_classBit : ([0x007F_FFFF, 0x0080_0000, 0x807F_FFFF, 0x8080_0000, 0x7F80_0000, 0xFF80_0000, 0x7FE0_0001, 0x7FC0_0000, 0x8000_0000].map
    (classBit false false)) = [5, 6, 2, 1, 7, 0, 8, 9, 3] := by decide +kernel

theorem test_hyp_RoundingByMode : ((0 : Nat) < 5 ∨ false = true) ∧ 0 < 2 ^ 24 ∧ roundUnits 0 false 0 5 0 false 1 = (2, true)
    ∧ ((0 : Int) < 24 ∧ (true = true → (0 : Int) + 24 ≤ 24)) ∧ Fmt.f32.m ≤ 52 ∧ 2 ^ 120 ≤ (Ex.mk false (2 ^ 120) 0 true).m := by
  decide +kernel

theorem test_hyp_ExactSumsAndProducts :
    (Ex.mk false 3 0 false).st = false ∧ (Ex.mk true 3 0 false).m ≠ 0 ∧ (exAdd true (Ex.mk false 3 0 false) (Ex.mk true 3 0 false)).m = 0
    ∧ (exAdd false (Ex.mk false 1 1000 false) (Ex.mk true 1 0 false)).st = true := by
  decide +kernel

/-! ## Poison, system registers, the port -/

/-- An operation runs in s, unchanged, and its scalar source SRCA is a. -/
def HypA (i : Instr) (o : Op) (s : State) (a : SVal) : Prop := Runs i o s s ∧ Reads (readScalar o.a) s a s

/-- The same with SRCB, b. -/
def HypAB (i : Instr) (o : Op) (s : State) (a b : SVal) : Prop := HypA i o s a ∧ Reads (readScalar o.b) s b s

theorem hypA_of {i : Instr} {o : Op} {s : State} {a : SVal} (h : (runsIs i o s s && okIs (readScalar o.a) s a s) = true) :
    HypA i o s a := by
  simp only [Bool.and_eq_true] at h
  exact ⟨runs_of h.1, reads_of h.2⟩

theorem hypAB_of {i : Instr} {o : Op} {s : State} {a b : SVal} (h : (runsIs i o s s && okIs (readScalar o.a) s a s
    && okIs (readScalar o.b) s b s) = true) : HypAB i o s a b := by
  simp only [Bool.and_eq_true] at h
  exact ⟨⟨runs_of h.1.1, reads_of h.1.2⟩, reads_of h.2⟩

theorem test_hyp_PoisonOperations :
    HypA (.ptest (op 3 5 0 1)) (op 3 5 0 1) (inSlot 1 (.ptest (op 3 5 0 1)) setRegs) ⟨9, true, true⟩
    ∧ HypA (.porig (op 3 5 0 1)) (op 3 5 0 1) (inSlot 1 (.porig (op 3 5 0 1)) setRegs) ⟨9, true, true⟩
    ∧ (HypA (.pchk (op 0 5 0 1)) (op 0 5 0 1) (inSlot 1 (.pchk (op 0 5 0 1)) setRegs) ⟨9, true, true⟩
      ∧ poisonUnder 1 ⟨9, true, true⟩ = some 9)
    ∧ (HypA (.pchk (op 0 4 0 1)) (op 0 4 0 1) (inSlot 1 (.pchk (op 0 4 0 1)) setRegs) (SVal.plain 7)
      ∧ poisonUnder 1 (SVal.plain 7) = none)
    ∧ HypAB (.psan (op 3 5 6 1)) (op 3 5 6 1) (inSlot 1 (.psan (op 3 5 6 1)) setRegs) ⟨9, true, true⟩ (SVal.plain 9)
    ∧ HypAB (.psan (op 3 4 6 1)) (op 3 4 6 1) (inSlot 1 (.psan (op 3 4 6 1)) setRegs) (SVal.plain 7) (SVal.plain 9)
    ∧ Hyp2 (.chkeq (op 0 4 4 1)) (op 0 4 4 1) (inSlot 1 (.chkeq (op 0 4 4 1)) setRegs) (SVal.plain 7) (SVal.plain 7)
    ∧ (Hyp2 (.chkeq (op 0 4 6 1)) (op 0 4 6 1) (inSlot 1 (.chkeq (op 0 4 6 1)) setRegs) (SVal.plain 7) (SVal.plain 9)
      ∧ (inSlot 1 (.chkeq (op 0 4 6 1)) setRegs).cur.resil = false ∧ (inSlot 1 (.psan (op 3 5 6 1)) setRegs).cur.seg = none) :=
  ⟨hypA_of (by decide +kernel), hypA_of (by decide +kernel), ⟨hypA_of (by decide +kernel), by decide⟩,
    ⟨hypA_of (by decide +kernel), by decide⟩, hypAB_of (by decide +kernel), hypAB_of (by decide +kernel),
    hyp2_of (by decide +kernel), hyp2_of (by decide +kernel), by decide +kernel, by decide +kernel⟩

theorem test_hyp_SystemRegisterReads :
    let o := op 0b0100011 0 0 0x19
    let s := inSlot 2 (.mfs o)
    Runs (.mfs o) o s s ∧ s.soft = [] ∧ s.cur.placed :=
  ⟨runs_of (by decide +kernel), by decide +kernel, by unfold Kern.placed; decide +kernel⟩

/-- Scalar registers of bank sb: sb4 is 8, sb5 poison, sb6 is 2^49. -/
def sbRegs : Kern → Kern := withRegs [(36, Reg.ofWord 8), (37, Reg.tagged true 9), (38, Reg.ofWord 0x2_0000_0000_0000)]

theorem test_hyp_SystemRegisterWrites :
    (∀ m ∈ [0x09, 0x0C, 0x10, 0x11, 0x12, 0x13],
      runsIs (.mts (op 0 0x24 0 m)) (op 0 0x24 0 m) (inSlot 2 (.mts (op 0 0x24 0 m)) sbRegs) (inSlot 2 (.mts (op 0 0x24 0 m)) sbRegs) = true)
    ∧ HypA (.mts (op 0 0x24 0 0x11)) (op 0 0x24 0 0x11) (inSlot 2 (.mts (op 0 0x24 0 0x11)) sbRegs) (SVal.plain 8)
    ∧ HypA (.mts (op 0 0x24 0 0x00)) (op 0 0x24 0 0x00) (inSlot 2 (.mts (op 0 0x24 0 0x00)) sbRegs) (SVal.plain 8)
    ∧ HypA (.mts (op 0 0x25 0 0x13)) (op 0 0x25 0 0x13) (inSlot 2 (.mts (op 0 0x25 0 0x13)) sbRegs) ⟨9, true, true⟩ :=
  ⟨by decide +kernel, hypA_of (by decide +kernel), hypA_of (by decide +kernel), hypA_of (by decide +kernel)⟩

theorem test_hyp_PortAccessesIssue :
    (HypAB (.mld (op 0b0100011 0x24 0xF0 1)) (op 0b0100011 0x24 0xF0 1) (inSlot 2 (.mld (op 0b0100011 0x24 0xF0 1)) sbRegs)
      (SVal.plain 8) SVal.zero ∧ addrOk (op 0b0100011 0x24 0xF0 1) 8)
    ∧ HypAB (.mst (op 0 0x24 0x24 0x41)) (op 0 0x24 0x24 0x41) (inSlot 2 (.mst (op 0 0x24 0x24 0x41)) sbRegs) (SVal.plain 8) (SVal.plain 8)
    ∧ poisonUnder 3 (SVal.plain 8) = none
    ∧ (HypA (.amo (op 0b0100011 0x24 0x24 0xA1)) (op 0b0100011 0x24 0x24 0xA1) (inSlot 2 (.amo (op 0b0100011 0x24 0x24 0xA1)) sbRegs)
        (SVal.plain 8)
      ∧ Reads (readDest (op 0b0100011 0x24 0x24 0xA1) true) (inSlot 2 (.amo (op 0b0100011 0x24 0x24 0xA1)) sbRegs) SVal.zero
          (inSlot 2 (.amo (op 0b0100011 0x24 0x24 0xA1)) sbRegs))
    ∧ Hyp2 (.red (op 0 0x24 0x24 1)) (op 0 0x24 0x24 1) (inSlot 2 (.red (op 0 0x24 0x24 1)) sbRegs) (SVal.plain 8) (SVal.plain 8) :=
  ⟨⟨hypAB_of (by decide +kernel), by unfold addrOk; decide⟩, hypAB_of (by decide +kernel), by decide,
    ⟨hypA_of (by decide +kernel), reads_of (by decide +kernel)⟩, hyp2_of (by decide +kernel)⟩

theorem test_hyp_AddressChecks :
    HypAB (.mld (op 0b0100011 0x25 0xF0 1)) (op 0b0100011 0x25 0xF0 1) (inSlot 2 (.mld (op 0b0100011 0x25 0xF0 1)) sbRegs)
      ⟨9, true, true⟩ SVal.zero
    ∧ (HypAB (.mld (op 0b0100011 0x26 0xF0 1)) (op 0b0100011 0x26 0xF0 1) (inSlot 2 (.mld (op 0b0100011 0x26 0xF0 1)) sbRegs)
      (SVal.plain 0x2_0000_0000_0000) SVal.zero ∧ ¬ addrOk (op 0b0100011 0x26 0xF0 1) 0x2_0000_0000_0000)
    ∧ HypAB (.mst (op 0 0x25 0x24 1)) (op 0 0x25 0x24 1) (inSlot 2 (.mst (op 0 0x25 0x24 1)) sbRegs) ⟨9, true, true⟩ (SVal.plain 8)
    ∧ HypAB (.mst (op 0 0x26 0x24 1)) (op 0 0x26 0x24 1) (inSlot 2 (.mst (op 0 0x26 0x24 1)) sbRegs) (SVal.plain 0x2_0000_0000_0000)
        (SVal.plain 8)
    ∧ Hyp2 (.amo (op 0b0100011 0x25 0x24 1)) (op 0b0100011 0x25 0x24 1) (inSlot 2 (.amo (op 0b0100011 0x25 0x24 1)) sbRegs)
        ⟨9, true, true⟩ (SVal.plain 8)
    ∧ Hyp2 (.amo (op 0b0100011 0x26 0x24 1)) (op 0b0100011 0x26 0x24 1) (inSlot 2 (.amo (op 0b0100011 0x26 0x24 1)) sbRegs)
        (SVal.plain 0x2_0000_0000_0000) (SVal.plain 8) :=
  ⟨hypAB_of (by decide +kernel), ⟨hypAB_of (by decide +kernel), by unfold addrOk; decide⟩, hypAB_of (by decide +kernel),
    hypAB_of (by decide +kernel), hyp2_of (by decide +kernel), hyp2_of (by decide +kernel)⟩

/-! ## The C slot -/

/-- sa4 is 7, sa5 poison, sa6 is 1; the return stack holds 5. -/
def cRegs (k : Kern) : Kern :=
  { withRegs [(4, Reg.ofWord 7), (5, Reg.tagged true 9), (6, Reg.ofWord 1)] k with ctl := { k.ctl with rstack := [5] } }

/-- The kernel runs a handler. -/
def inHandler (k : Kern) : Kern := { k with ctl := { k.ctl with handler := true } }

/-- The kernel runs a loop of the bundles 0 to 9. -/
def inLoop (k : Kern) : Kern := { k with ctl := { k.ctl with lc0 := ⟨true, false, 2, 9, 5, 0, 77, false, false⟩ } }

theorem flowOk_of {s : State} (h : (match s.flowTarget with | none => true | some a => isAllotted s.cur.res.is a) = true) : FlowOk s := by
  intro a ha
  simpa [ha] using h

theorem mayTransfer_of {k : Kern} (h : (k.ctl.handler || (!k.ctl.lc0.active && !k.ctl.lc1.active)) = true) : k.mayTransfer := by
  simpa [Kern.mayTransfer] using h

/-- A transfer with register operand sa4. -/
def opTr : Op := op 0 4 0 0

theorem test_hyp_TransfersSetTheNextBundle :
    (∀ i ∈ [Instr.br opTr, .jmp opTr, .call opTr, .callr opTr], runsIs i opTr (inSlot 0 i cRegs) (inSlot 0 i cRegs) = true)
    ∧ HypA (.br opTr) opTr (inSlot 0 (.br opTr) cRegs) (SVal.plain 7)
    ∧ namesBundle 7 ∧ (inSlot 0 (.call opTr) cRegs).cur.mayTransfer ∧ (inSlot 0 (.call opTr) cRegs).cur.ctl.rstack.length < 16
    ∧ FlowOk ((inSlot 0 (.br opTr) cRegs).decide fun i => { i with target := some 7 })
    ∧ Runs (.ret (op 0 0 0 0)) (op 0 0 0 0) (inSlot 0 (.ret (op 0 0 0 0)) cRegs) (inSlot 0 (.ret (op 0 0 0 0)) cRegs)
    ∧ (inSlot 0 (.ret (op 0 0 0 0)) cRegs).cur.ctl.rstack = [5]
    ∧ (HypA (.bswp (op 0 0x90 0 1)) (op 0 0x90 0 1) (inSlot 0 (.bswp (op 0 0x90 0 1)) cRegs [0x3C0]) (SVal.plain 0x3C0)
      ∧ FlowOk ((inSlot 0 (.bswp (op 0 0x90 0 1)) cRegs [0x3C0]).decide fun i => { i with target := some 0x3C0 })
      ∧ (inSlot 0 (.bswp (op 0 0x90 0 1)) cRegs [0x3C0]).cur.halfClosed 1 = false)
    ∧ (Runs (.nop (op 0 0 0 0)) (op 0 0 0 0) (inSlot 0 (.nop (op 0 0 0 0))) (inSlot 0 (.nop (op 0 0 0 0)))
      ∧ FlowOk (inSlot 0 (.nop (op 0 0 0 0)))) :=
  ⟨by decide +kernel, hypA_of (by decide +kernel), by unfold namesBundle; decide, mayTransfer_of (by decide +kernel), by decide +kernel,
    flowOk_of (by decide +kernel), runs_of (by decide +kernel), by decide +kernel,
    ⟨hypA_of (by decide +kernel), flowOk_of (by decide +kernel), by decide +kernel⟩,
    runs_of (by decide +kernel), flowOk_of (by decide +kernel)⟩

theorem test_hyp_TransferFailuresTrap :
    HypA (.br (op 0 5 0 0)) (op 0 5 0 0) (inSlot 0 (.br (op 0 5 0 0)) cRegs) ⟨9, true, true⟩
    ∧ HypA (.jmp (op 0 0x90 0 0)) (op 0 0x90 0 0) (inSlot 0 (.jmp (op 0 0x90 0 0)) id [0x800]) (SVal.plain 0x800) ∧ ¬ namesBundle 0x800
    ∧ (HypA (.br opTr) opTr (inSlot 0 (.br opTr) fun k => inLoop (cRegs k)) (SVal.plain 7)
      ∧ ¬ (inSlot 0 (.br opTr) fun k => inLoop (cRegs k)).cur.mayTransfer)
    ∧ HypA (.call opTr) opTr (inSlot 0 (.call opTr) fun k =>
        { withRegs [(4, Reg.ofWord 7)] k with ctl := { k.ctl with rstack := List.replicate 16 5 } }) (SVal.plain 7)
    ∧ (Runs (.ret (op 0 0 0 0)) (op 0 0 0 0) (inSlot 0 (.ret (op 0 0 0 0))) (inSlot 0 (.ret (op 0 0 0 0)))
      ∧ (inSlot 0 (.ret (op 0 0 0 0))).cur.ctl.rstack = []) :=
  ⟨hypA_of (by decide +kernel), hypA_of (by decide +kernel), by unfold namesBundle; decide,
    ⟨hypA_of (by decide +kernel), by unfold Kern.mayTransfer; decide +kernel⟩, hypA_of (by decide +kernel),
    runs_of (by decide +kernel), by decide +kernel⟩

/-- A BSWP in H0 to the absolute bundle v. -/
def bswpTo (v : Nat) (f : Kern → Kern := id) : State := inSlot 0 (.bswp (op 0 0x90 0 1)) f [v]

theorem test_hyp_HalfSwapFailuresTrap :
    (HypA (.bswp (op 0 0x90 0 1)) (op 0 0x90 0 1) (bswpTo 0x3BF) (SVal.plain 0x3BF) ∧ ¬ otherHalf (bswpTo 0x3BF).issue.addr 0x3BF)
    ∧ (let s := bswpTo 0x3C0 fun k => { k with ctl := { k.ctl with stale1 := true } }
      HypA (.bswp (op 0 0x90 0 1)) (op 0 0x90 0 1) s (SVal.plain 0x3C0) ∧ otherHalf s.issue.addr 0x3C0 ∧ s.cur.halfClosed 1 = true)
    ∧ (let s := bswpTo 0x3C0 inLoop
      HypA (.bswp (op 0 0x90 0 1)) (op 0 0x90 0 1) s (SVal.plain 0x3C0) ∧ s.cur.halfClosed 1 = false ∧ ¬ s.cur.mayTransfer)
    ∧ (let s := inSlot 0 (.halt (op 0 0 0 0)) inHandler
      Runs (.halt (op 0 0 0 0)) (op 0 0 0 0) s s ∧ s.cur.ctl.handler = true)
    ∧ (let s := inSlot 0 (.rft (op 0 0 0 0))
      Runs (.rft (op 0 0 0 0)) (op 0 0 0 0) s s ∧ s.cur.ctl.handler = false) :=
  ⟨⟨hypA_of (by decide +kernel), by unfold otherHalf; decide +kernel⟩,
    ⟨hypA_of (by decide +kernel), by unfold otherHalf; decide +kernel, by decide +kernel⟩,
    ⟨hypA_of (by decide +kernel), by decide +kernel, by unfold Kern.mayTransfer; decide +kernel⟩,
    ⟨runs_of (by decide +kernel), by decide +kernel⟩, runs_of (by decide +kernel), by decide +kernel⟩

/-- The flow check fails: a NOP in the last bundle of H0 of an allotment of one half. -/
theorem test_hyp_FlowCheck :
    let s := (State.reset.withStandIn.modKern 0 fun k =>
      { k with ctl := { k.ctl with pc := 0x3BF }, res := { k.res with is := 1 } }).place
      (bundleOf 0 ((encode (.nop (op 0 0 0 0))).getD 0) [])
    Runs (.nop (op 0 0 0 0)) (op 0 0 0 0) s s ∧ s.flowTarget = some 0x3C0 ∧ isAllotted s.cur.res.is 0x3C0 = false :=
  ⟨runs_of (by decide +kernel), by decide +kernel, by decide +kernel⟩

theorem test_hyp_LoopsStartAndEndByDecision :
    (let s := inSlot 0 (.loop (op 0 4 6 2)) cRegs
     HypAB (.loop (op 0 4 6 2)) (op 0 4 6 2) s (SVal.plain 7) (SVal.plain 1) ∧ s.issue.addr.toNat + 1 < 0x3C0
      ∧ s.cur.ctl.lc0.active = false ∧ s.cur.ctl.handler = false
      ∧ FlowOk (s.ctl fun c => { c with lc0 := ⟨true, s.preempting s.cur, 2, 0, 0, 1, 7, false, false⟩ }))
    ∧ (let s := inSlot 0 (.lbrk (op 0 0 0 1)) inLoop
      Runs (.lbrk (op 0 0 0 1)) (op 0 0 0 1) s s ∧ s.cur.ctl.inner = some ⟨true, false, 2, 9, 5, 0, 77, false, false⟩
        ∧ FlowOk (s.ctl fun c => { c with lc0 := ⟨true, true, 2, 9, 5, 0, 77, false, false⟩ }))
    ∧ (let s := inSlot 0 (.loop (op 0 4 6 2)) fun k =>
        { cRegs k with ctl := { k.ctl with lc0 := ⟨false, false, 2, 0, 0, 1, 6, true, false⟩ } }
      Runs (.loop (op 0 4 6 2)) (op 0 4 6 2) s s ∧ s.cur.ctl.lc0.susp = true ∧ s.cur.ctl.lc0.start.toNat = s.issue.addr.toNat + 1
        ∧ Reads (readScalar 6) s (SVal.plain 1) s)
    ∧ (let s := inSlot 0 (.loop (op 0 4 6 2)) fun k =>
        { cRegs k with ctl := { k.ctl with lc0 := ⟨true, false, 2, 9, 5, 0, 77, false, false⟩ } }
      HypAB (.loop (op 0 4 6 2)) (op 0 4 6 2) s (SVal.plain 7) (SVal.plain 1) ∧ s.cur.ctl.lc0.active = true
        ∧ s.cur.ctl.lc1.active = false ∧ s.cur.ctl.lc0.start.toNat ≤ 1 ∧ 1 < 0 + s.cur.ctl.lc0.iim1.toNat)
    ∧ (let s := inSlot 0 (.lbrk (op 0 0 0 1))
      Runs (.lbrk (op 0 0 0 1)) (op 0 0 0 1) s s ∧ s.cur.ctl.inner = none)
    ∧ (let s := inSlot 0 (.ifence (op 0 0 0 0))
      Runs (.ifence (op 0 0 0 0)) (op 0 0 0 0) s s
        ∧ FlowOk (((s.fenceCode s.cur.core).ctl fun c => { c with stale0 := false, stale1 := false }).decide fun i => { i with gap := 5 })) :=
  ⟨⟨hypAB_of (by decide +kernel), by decide +kernel, by decide +kernel, by decide +kernel, flowOk_of (by decide +kernel)⟩,
    ⟨runs_of (by decide +kernel), by decide +kernel, flowOk_of (by decide +kernel)⟩,
    ⟨runs_of (by decide +kernel), by decide +kernel, by decide +kernel, reads_of (by decide +kernel)⟩,
    ⟨hypAB_of (by decide +kernel), by decide +kernel, by decide +kernel, by decide +kernel, by decide +kernel⟩,
    ⟨runs_of (by decide +kernel), by decide +kernel⟩, runs_of (by decide +kernel), flowOk_of (by decide +kernel)⟩

theorem test_loop_pass : LoopReg.boundary ⟨true, false, 1, 9, 3, 4, 2, false, false⟩ false = (⟨true, false, 1, 9, 3, 4, 1, false, false⟩, none)
    ∧ (LoopReg.boundary ⟨true, false, 0, 9, 1, 4, 0, false, false⟩ false).2 = some 14 := by decide

theorem test_hyp_WaitsBeginAfterTheirBundle :
    (∀ i ∈ [Instr.sync (op 0 0 0 0), .yield (op 0 4 0 0)], ∀ o, i.op? = some o →
      runsIs i o (inSlot 0 i cRegs) (inSlot 0 i cRegs) = true
        ∧ runsIs i o (inSlot 0 i (inHandler ∘ cRegs)) (inSlot 0 i (inHandler ∘ cRegs)) = true)
    ∧ FlowOk ((inSlot 0 (.sync (op 0 0 0 0))).decide fun i => { i with wait := .sync false })
    ∧ HypA (.yield (op 0 4 0 0)) (op 0 4 0 0) (inSlot 0 (.yield (op 0 4 0 0)) cRegs) (SVal.plain 7)
    ∧ (let s := inSlot 0 (.waitx (op 0 4 0 4)) fun k => (cRegs k).modPort 4 fun p => { p with last := 9, xdone := 3 }
      HypA (.waitx (op 0 4 0 4)) (op 0 4 0 4) s (SVal.plain 7) ∧ serialLe 7 (s.cur.port 4).last = true
        ∧ serialLe 7 (s.cur.port 4).xdone = false ∧ FlowOk (s.decide fun i => { i with wait := .waitx 4 7 }))
    ∧ (let s := inSlot 0 (.waitx (op 0 4 0 4)) fun k => (cRegs k).modPort 4 fun p => { p with last := 9, xdone := 8 }
      HypA (.waitx (op 0 4 0 4)) (op 0 4 0 4) s (SVal.plain 7) ∧ serialLe 7 (s.cur.port 4).xdone = true ∧ (s.cur.port 4).reports = []
        ∧ FlowOk s)
    ∧ (let s := inSlot 0 (.waito (op 0 0 0 3))
      Runs (.waito (op 0 0 0 3)) (op 0 0 0 3) s s 
        ∧ ((s.cur.entryKeys 3).filter fun key => Tab.get 0 s.cur.own key != 0) = [] ∧ FlowOk s)
    ∧ (let s := inSlot 0 (.waitb (op 0 0 0 0)) fun k => k.setUnit .xs 0 (.waking 9)
      Runs (.waitb (op 0 0 0 0)) (op 0 0 0 0) s s ∧ s.cur.anyWaking = true ∧ FlowOk (s.decide fun i => { i with wait := .waitb })) :=
  ⟨by
      intro i hi o ho
      simp only [List.mem_cons, List.not_mem_nil, or_false] at hi
      rcases hi with rfl | rfl <;> (simp only [Instr.op?, Option.some.injEq] at ho; subst ho; decide +kernel),
    flowOk_of (by decide +kernel), hypA_of (by decide +kernel),
    ⟨hypA_of (by decide +kernel), by decide +kernel, by decide +kernel, flowOk_of (by decide +kernel)⟩,
    ⟨hypA_of (by decide +kernel), by decide +kernel, by decide +kernel, flowOk_of (by decide +kernel)⟩,
    ⟨runs_of (by decide +kernel), by decide +kernel, flowOk_of (by decide +kernel)⟩,
    runs_of (by decide +kernel), by decide +kernel, flowOk_of (by decide +kernel)⟩

/-! ## The V slots -/

/-- A vector operation of two sources runs in s; its sources are zero registers and its mask is m. -/
def HypV2 (i : Instr) (o : Op) (s : State) (m : Word) : Prop :=
  Runs i o s s ∧ Reads (readVector o.w o.a) s ⟨0, 0⟩ s ∧ Reads (readVector o.w o.b) s ⟨0, 0⟩ s ∧ Reads (controlMask o.m75 o.w) s m s ∧ s.soft = []

/-- One of one source. -/
def HypV1 (i : Instr) (o : Op) (s : State) (m : Word) : Prop :=
  Runs i o s s ∧ Reads (readVector o.w o.a) s ⟨0, 0⟩ s ∧ Reads (controlMask o.m75 o.w) s m s ∧ s.soft = []

theorem hypV2_of {i : Instr} {o : Op} {s : State} {m : Word} (h : (runsIs i o s s && okIs (readVector o.w o.a) s ⟨0, 0⟩ s
    && okIs (readVector o.w o.b) s ⟨0, 0⟩ s && okIs (controlMask o.m75 o.w) s m s && s.soft.isEmpty) = true) : HypV2 i o s m := by
  simp only [Bool.and_eq_true, List.isEmpty_iff] at h
  exact ⟨runs_of h.1.1.1.1, reads_of h.1.1.1.2, reads_of h.1.1.2, reads_of h.1.2, h.2⟩

theorem hypV1_of {i : Instr} {o : Op} {s : State} {m : Word} (h : (runsIs i o s s && okIs (readVector o.w o.a) s ⟨0, 0⟩ s
    && okIs (controlMask o.m75 o.w) s m s && s.soft.isEmpty) = true) : HypV1 i o s m := by
  simp only [Bool.and_eq_true, List.isEmpty_iff] at h
  exact ⟨runs_of h.1.1.1, reads_of h.1.1.2, reads_of h.1.2, h.2⟩

/-- Fields of a vector operation: va3, va4, va6 at 32 bits. -/
def opV : Op := op 3 4 6 0
/-- Fields of one of one source. -/
def opV1 : Op := op 3 4 0 0
/-- The mask m0: every lane. -/
def all64 : Word := BitVec.allOnes 64
/-- The state in which an operation stands in V0. -/
def inV (i : Instr) : State := inSlot 3 i

theorem test_hyp_IntegerLanes : HypV2 (.viadd opV) opV (inV (.viadd opV)) all64 := hypV2_of (by decide +kernel)

theorem test_hyp_FloatingPointLanes :
    (HypV2 (.vadd opV) opV (inV (.vadd opV)) all64 ∧ ∃ l fl x, Computes (fpLanes opV all64 fun i =>
        fpAdd 0 (laneVal .f32 false ⟨0, 0⟩ i) (laneVal .f32 false ⟨0, 0⟩ i) >>= fun r => roundTo .f32 r 0 false) 0 (inV (.vadd opV)) l fl x
          ∧ x.soft = [])
    ∧ (HypV1 (.vsqrt opV1) opV1 (inV (.vsqrt opV1)) all64 ∧ ∃ l fl x, Computes (fpLanes opV1 all64 fun i =>
        fpSqrt (laneVal .f32 false ⟨0, 0⟩ i) >>= fun r => roundTo .f32 r 0 false) 0 (inV (.vsqrt opV1)) l fl x ∧ x.soft = [])
    ∧ (HypV2 (.vfma opV) opV (inV (.vfma opV)) all64 ∧ Reads (readVDest opV) (inV (.vfma opV)) ⟨0, 0⟩ (inV (.vfma opV))
      ∧ ∃ l fl x, Computes (fpLanes opV all64 fun i => fpFma 0 (laneVal .f32 false ⟨0, 0⟩ i) (laneVal .f32 false ⟨0, 0⟩ i)
        (laneVal .f32 false ⟨0, 0⟩ i) >>= fun r => roundTo .f32 r 0 false) 0 (inV (.vfma opV)) l fl x ∧ x.soft = [])
    ∧ (HypV2 (.vmin opV) opV (inV (.vmin opV)) all64 ∧ ∃ l fl x, Computes (fpLanes opV all64 fun i =>
        fpMinMax false (laneVal .f32 false ⟨0, 0⟩ i) (laneVal .f32 false ⟨0, 0⟩ i) >>= fun r => exact .f32 r) 0 (inV (.vmin opV)) l fl x
          ∧ x.soft = [])
    ∧ (HypV2 (.vsgn opV) opV (inV (.vsgn opV)) all64 ∧ ∃ l fl x, Computes (fpLanes opV all64 fun i =>
        signOp .f32 (laneVal .f32 false ⟨0, 0⟩ i) (laneVal .f32 false ⟨0, 0⟩ i) 0 0) 0 (inV (.vsgn opV)) l fl x ∧ x.soft = [])
    ∧ HypV1 (.vclass opV1) opV1 (inV (.vclass opV1)) all64 :=
  ⟨⟨hypV2_of (by decide +kernel), computes_ex (by decide +kernel)⟩, ⟨hypV1_of (by decide +kernel), computes_ex (by decide +kernel)⟩,
    ⟨hypV2_of (by decide +kernel), reads_of (by decide +kernel), computes_ex (by decide +kernel)⟩,
    ⟨hypV2_of (by decide +kernel), computes_ex (by decide +kernel)⟩, ⟨hypV2_of (by decide +kernel), computes_ex (by decide +kernel)⟩,
    hypV1_of (by decide +kernel)⟩

theorem test_hyp_LaneMovement :
    HypV2 (.vsel opV) opV (inV (.vsel opV)) all64 ∧ HypV1 (.vmov opV1) opV1 (inV (.vmov opV1)) all64
    ∧ (HypA (.vbcast opV1) opV1 (inV (.vbcast opV1)) SVal.zero ∧ Reads (controlMask 0 false) (inV (.vbcast opV1)) all64 (inV (.vbcast opV1)))
    ∧ HypV2 (.vperm opV) opV (inV (.vperm opV)) all64
    ∧ (HypV1 (.vext opV) opV (inV (.vext opV)) all64 ∧ Reads (readScalar opV.b) (inV (.vext opV)) SVal.zero (inV (.vext opV)))
    ∧ (HypAB (.vins opV) opV (inV (.vins opV)) SVal.zero SVal.zero ∧ Reads (readVDest opV) (inV (.vins opV)) ⟨0, 0⟩ (inV (.vins opV))) :=
  ⟨hypV2_of (by decide +kernel), hypV1_of (by decide +kernel), ⟨hypA_of (by decide +kernel), reads_of (by decide +kernel)⟩,
    hypV2_of (by decide +kernel), ⟨hypV1_of (by decide +kernel), reads_of (by decide +kernel)⟩, hypAB_of (by decide +kernel),
    reads_of (by decide +kernel)⟩

/-- Masks m1 and m2 as registers hold them after launch, and the fields of a mask operation on them. -/
def opM : Op := op 3 1 2 0

theorem test_hyp_MasksFromLanesAndMasks :
    HypV2 (.vicmp opV) opV (inV (.vicmp opV)) all64
    ∧ (HypV2 (.vcmp opV) opV (inV (.vcmp opV)) all64 ∧ ∃ l fl x, Computes (outcomes all64 (fun i =>
        compareOp 0 (laneVal .f32 false ⟨0, 0⟩ i) (laneVal .f32 false ⟨0, 0⟩ i)) 64 0) 0 (inV (.vcmp opV)) l fl x ∧ x.soft = [])
    ∧ (∀ i ∈ [Instr.mlog opM, .mpop opM, .mfirst opM], runsIs i opM (inV i) (inV i) = true
      ∧ okIs (readMask 1) (inV i) ⟨0, 0, 0, 0⟩ (inV i) = true ∧ okIs (readMask 2) (inV i) ⟨0, 0, 0, 0⟩ (inV i) = true
      ∧ okIs (controlMask 0 false) (inV i) all64 (inV i) = true) :=
  ⟨hypV2_of (by decide +kernel), ⟨hypV2_of (by decide +kernel), computes_ex (by decide +kernel)⟩, by decide +kernel⟩

/-- MLOG NOT, and NW = 1: no second mask is read. -/
theorem test_hyp_MaskNot :
    let o := op 3 1 0 0x10
    let s := inV (.mlog o)
    Runs (.mlog o) o s s ∧ Reads (readMask o.a.toNat) s ⟨0, 0, 0, 0⟩ s ∧ s.soft = [] ∧ o.m41 = 8
    ∧ (let q := { op 0 1 2 0 with nw := true }
      runsIs (.mlog q) q (inV (.mlog q)) (inV (.mlog q)) = true ∧ runsIs (.vicmp { op 0 4 6 0 with nw := true }) { op 0 4 6 0 with nw := true }
        (inV (.vicmp { op 0 4 6 0 with nw := true })) (inV (.vicmp { op 0 4 6 0 with nw := true })) = true) :=
  ⟨runs_of (by decide +kernel), reads_of (by decide +kernel), by decide +kernel, by decide, by decide +kernel, by decide +kernel⟩

/-- fmt3 is a narrow format with block scales. -/
def narrow (k : Kern) : Kern := { k with fmts := Tab.put 0x0020_0000 k.fmts 3 0x000C_0144 }

theorem test_hyp_ConversionsAndQuantisation :
    (let o := op 3 4 2 0
     let s := inV (.vcvt o)
     let cv := convOf 2
     let on := fun j => all64.getLsbD (cv.tl.place 0 j).2.2.2
     Runs (.vcvt o) o s s ∧ Reads (readVector (cv.sl == .w64) o.a) s ⟨0, 0⟩ s ∧ Reads (readMask o.m75) s ⟨all64, 0, 0, all64⟩ s
      ∧ ∃ l fl x, Computes (forLanes (bitsFrom 64 ((List.range cv.sl.count).filter on)) (fun j => do
          return fpLane cv.tf (← roundTo cv.tf (cv.sl.value cv.sf ⟨0, 0⟩ 0 j) o.rm o.sat)) cv.sl.count 0) 0 s l fl x ∧ x.soft = [])
    ∧ (let o := op 3 4 3 0
      let s := inSlot 3 (.vqnt o) narrow
      HypV1 (.vqnt o) o s all64 ∧ ∃ f, Reads (quantFormat o) s f s ∧ ∃ r fl x, Computes (quantise f o.rm o.sat
          (((List.range 64).filter (all64.getLsbD ·)).map fun i => laneVal .f32 false ⟨0, 0⟩ i)) 0 s r fl x ∧ x.soft = [])
    ∧ (let o := op 3 4 3 0
      let s := inSlot 3 (.vdqt o) narrow
      HypV1 (.vdqt o) o s all64 ∧ ∃ f, Reads (quantFormat o) s f s ∧ ∃ l fl x, Computes (do
          let scale ← blockScale ⟨0, 0⟩
          forLanes all64 (fun j => do
            let y ← scaledVal (decodeF f (0 / 2 ^ (f.w * j))) scale
            return fpLane .f32 (← roundTo .f32 y o.rm o.sat)) 64 0) 0 s l fl x ∧ x.soft = [])
    ∧ (let o := op 3 4 3 0x20
      let s := inSlot 3 (.vdqt o) narrow
      HypV1 (.vdqt o) o s 0 ∧ (∃ f, Reads (quantFormat o) s f s) ∧ s.FewOrigins)
    ∧ (let o := op 3 4 5 0
      ∀ i ∈ [Instr.vqnt o, .vdqt o], runsIs i o (inV i) (inV i) = true ∧ okIs (readVector false 4) (inV i) ⟨0, 0⟩ (inV i) = true
        ∧ okIs (readMask 0) (inV i) ⟨all64, 0, 0, all64⟩ (inV i) = true
        ∧ (match Fmt.ofDesc ((inV i).cur.fmtDesc 5) with | some f => !f.scaled | none => true) = true) :=
  ⟨⟨runs_of (by decide +kernel), reads_of (by decide +kernel), reads_of (by decide +kernel), computes_ex (by decide +kernel)⟩,
    ⟨hypV1_of (by decide +kernel), (Fmt.ofDesc 0x000C_0144).getD .f32, reads_of (by decide +kernel), computes_ex (by decide +kernel)⟩,
    ⟨hypV1_of (by decide +kernel), (Fmt.ofDesc 0x000C_0144).getD .f32, reads_of (by decide +kernel), computes_ex (by decide +kernel)⟩,
    ⟨hypV1_of (by decide +kernel), ⟨(Fmt.ofDesc 0x000C_0144).getD .f32, reads_of (by decide +kernel)⟩, few_of (by decide +kernel)⟩,
    by decide +kernel⟩

theorem test_hyp_ReductionsAndScans :
    (HypV1 (.vred (op 3 4 3 0)) (op 3 4 3 0) (inV (.vred (op 3 4 3 0))) all64 ∧ ∃ l fl x, Computes (tree (op 3 4 3 0) 6 2
        (selectedLanes false ⟨0, 0⟩ all64)) 0 (inV (.vred (op 3 4 3 0))) l fl x ∧ x.soft = [])
    ∧ (HypV1 (.vscan (op 3 4 3 0)) (op 3 4 3 0) (inV (.vscan (op 3 4 3 0))) all64 ∧ ∃ l fl x, Computes (scan (op 3 4 3 0) 0 none
        (selectedLanes false ⟨0, 0⟩ all64)) 0 (inV (.vscan (op 3 4 3 0))) l fl x ∧ x.soft = []) :=
  ⟨⟨hypV1_of (by decide +kernel), computes_ex (by decide +kernel)⟩, hypV1_of (by decide +kernel), computes_ex (by decide +kernel)⟩

/-- va4 has poison of origin 9 in lane 2. -/
def badLane (k : Kern) : Kern := { k with vregs := Tab.set k.vregs 4 ⟨BitVec.ofNat 2048 (9 * 2 ^ 64), 4, BitVec.ofNat 2048 (9 * 2 ^ 64)⟩ }

theorem test_hyp_VectorPoisonOperations :
    HypV1 (.vptest opV1) opV1 (inV (.vptest opV1)) all64
    ∧ HypV1 (.vpchk (op 0 4 0 0)) (op 0 4 0 0) (inV (.vpchk (op 0 4 0 0))) all64
    ∧ (let o := op 0 4 0 0
      let s := inSlot 3 (.vpchk o) badLane
      let a : VOp := ⟨BitVec.ofNat 2048 (9 * 2 ^ 64), 4⟩
      Runs (.vpchk o) o s s ∧ Reads (readVector false o.a) s a s ∧ (poisonAt o a all64 2).isSome = true
        ∧ (∀ j < 2, poisonAt o a all64 j = none) ∧ mergePoison ((List.range 64).map (poisonAt o a all64)) = some 9)
    ∧ (HypV2 (.vpsan opV) opV (inV (.vpsan opV)) all64 ∧ (inV (.vpsan opV)).cur.seg = none) :=
  ⟨hypV1_of (by decide +kernel), hypV1_of (by decide +kernel),
    ⟨runs_of (by decide +kernel), reads_of (by decide +kernel), by decide +kernel, by decide +kernel, by decide +kernel⟩,
    hypV2_of (by decide +kernel), by decide +kernel⟩

/-- A tensor record: layout, format number, buffer code, dimensions less 1, base, sizes, strides (08 R206). -/
def tensRec (layout fmt buf ndm1 base : Nat) (sz str : List Nat) : BitVec 512 :=
  BitVec.ofNat 512 (2 ^ 63 + ndm1 * 2 ^ 59 + layout * 2 ^ 56 + fmt * 2 ^ 52 + buf * 2 ^ 49 + base
    + 2 ^ 64 * packNat 16 (sz.map (· - 1)) + 2 ^ 128 * packNat 32 str + 2 ^ 320 * 0xFF_FFFF)

/-- 64 elements of binary32 at the start of AB. -/
def abTens : Tens := ⟨0, tensRec 0 0 0 0 0 [64] [1], 0x0020_0000⟩

/-- A stream over it: load, or store with bit 8. -/
def strm (dir : Nat) : Stream := ⟨BitVec.ofNat 512 (dir * 2 ^ 8 + 2 ^ 64 * 63 + 2 ^ 128), abTens, none, 0, 0, [], [], none, 0, 0, 0, []⟩

/-- Stream 1 has a pattern. -/
def withStream (dir : Nat) (k : Kern) : Kern := { k with streams := [(1, strm dir)] }

/-- The one pop of the stream, fetched. -/
def onePop : Pop := ⟨0, 0, ⟨0, 0, 0⟩, (List.range 64).map fun i => .at_ (4 * i), none⟩

theorem test_hyp_VectorBufferAccess :
    (let o := op 3 1 0 0
     let s := inSlot 3 (.vld o) (withStream 0)
     let v := s.fetchPop 0 1
     let y := { strm 0 with pops := [onePop] }
     Runs (.vld o) o s s ∧ Tab.get? s.cur.streams 1 = some (strm 0) ∧ (strm 0).isStore = false ∧ 0 < (strm 0).npops
      ∧ Reads (controlMask 0 false) s all64 s ∧ s.cur.indexCold (strm 0) 0 = none ∧ s.cur.popCold (strm 0) 0 = none
      ∧ Tab.get? v.cur.streams 1 = some y ∧ v.cur.popFault y 0 = none ∧ (v.cur.notePop y onePop).owner = none ∧ v.cur.popCold y 0 = none ∧ v.soft = [])
    ∧ (let o := op 0 4 1 0
      let s := inSlot 3 (.vst o) (withStream 1)
      Runs (.vst o) o s s ∧ Reads (readVector false o.a) s ⟨0, 0⟩ s ∧ Tab.get? s.cur.streams 1 = some (strm 1)
        ∧ (strm 1).isStore = true ∧ 0 < (strm 1).npops ∧ Reads (controlMask 0 false) s all64 s ∧ s.cur.indexCold (strm 1) 0 = none
        ∧ Reads (touchRanges .ab ((strm 1).indexRanges 0)) (s.withOpnd 0) () (s.withOpnd 0) ∧ s.cur.popFault (strm 1) 0 = none
        ∧ (s.withOpnd 0).cur = s.cur
        ∧ (s.cur.pushWrites (strm 1) 0 ⟨0, 0⟩ all64).all (fun b => (s.cur.ownedByte .ab b.addr (b.addr + 3) 0).isNone
            && (s.cur.coldByte .ab b.addr (b.addr + 3)).isNone) = true
        ∧ Reads (do for b in s.cur.pushWrites (strm 1) 0 ⟨0, 0⟩ all64 do logWrite .ab b.addr 4 : Slot Unit) (s.withOpnd 0) () (s.withOpnd 0))
    ∧ (let s := inV (.accrd opV1)
      HypA (.accrd opV1) opV1 s SVal.zero ∧ Reads (xsAddress SVal.zero) s 0 s ∧ Reads (controlMask 0 false) s all64 s
        ∧ Reads (touchBuf .xs 0 256) (s.withOpnd 0) () (s.withOpnd 0) ∧ s.soft = [])
    ∧ (let o := op 0 4 6 0
      let s := inV (.accwr o)
      Runs (.accwr o) o s s ∧ Reads (readVector false o.a) s ⟨0, 0⟩ s ∧ Reads (readScalar o.b) s SVal.zero s ∧ Reads (xsAddress SVal.zero) s 0 s
        ∧ Reads (controlMask 0 false) s all64 s ∧ Reads (logWrite .xs 0 256) (s.withOpnd 0) () (s.withOpnd 0)) := by
  refine ⟨⟨runs_of ?_, ?_, ?_, ?_, reads_of ?_, ?_, ?_, ?_, ?_, ?_, ?_, ?_⟩,
    ⟨runs_of ?_, reads_of ?_, ?_, ?_, ?_, reads_of ?_, ?_, reads_of ?_, ?_, rfl, ?_, reads_of ?_⟩,
    ⟨hypA_of ?_, reads_of ?_, reads_of ?_, reads_of ?_, ?_⟩,
    ⟨runs_of ?_, reads_of ?_, reads_of ?_, reads_of ?_, reads_of ?_, reads_of ?_⟩⟩ <;>
  decide +kernel
/-! ## The M slot -/

/-- What a slot operation answers satisfies p. -/
def okThen {α : Type} (f : Slot α) (s : State) (p : α → State → Bool) : Bool :=
  match f s with
  | .ok (x, t) => p x t
  | .error _ => false

theorem okThen_ex {α : Type} {f : Slot α} {s : State} {p : α → State → Bool} (h : okThen f s p = true) :
    ∃ x t, Reads f s x t ∧ p x t = true := by
  unfold okThen at h
  split at h
  · exact ⟨_, _, by assumption, h⟩
  · cases h

/-- t0: 64 bfloat16 elements of AB; t1: 64 x 64 of WS; t2, t3: index tensors of AB; t4: 64 x 1 x 1 of AB; t5: 64 binary32 of AB; t6: 64 bfloat16 of device memory. -/
def withTensors (k : Kern) : Kern :=
  { k with
    fmts := [(1, 0x0040_0000), (2, 0x0090_0000)]
    tdt := [(0, tensRec 0 1 0 0 0 [64] [1]), (1, tensRec 0 1 1 1 0 [64, 64] [1, 64]), (2, tensRec 4 2 0 0 1024 [4] [1]),
      (3, tensRec 4 2 0 0 2048 [4] [1]), (4, tensRec 0 1 0 2 4096 [64, 1, 1] [1, 64, 64]), (5, tensRec 0 0 0 0 8192 [64] [1])]
    mat := { k.mat with ai := 2, ci := 3, left := 1, cset := some (0x4, ⟨4, tensRec 0 1 0 2 4096 [64, 1, 1] [1, 64, 64], 0x0040_0000⟩) } }

/-- An M-slot operation with an A word of zero, a B word that names t1 and a mask word of zero: one row, column and term. -/
def opMul : Op := op 0 0xF0 0xA0 0xF0

/-- The state in which it stands in the M slot. -/
def inM (i : Instr) (pool : List Nat := [1, 0]) : State := inSlot 5 i withTensors pool

/-- `State.quiet`, evaluated. -/
def quietB (s : State) : Bool :=
  s.soft.isEmpty && s.cur.seg.isNone && [s.cur.ab, s.cur.ws, s.cur.xs].all fun b => b.ue.isEmpty && b.ce.isEmpty

theorem quiet_of {s : State} (h : quietB s = true) : s.quiet := by
  simpa [quietB, State.quiet, Buf.sound, and_assoc] using h

/-- A multiplication meets the hypotheses of its statement. -/
def mulB (i : Instr) (plan : Slot MatOp) (s : State) : Bool :=
  runsIs i opMul s s && okThen plan s fun m u => okIs (checkTouch m.plan.touch) u () u && !m.rows.isEmpty && quietB u
    && computesB (foldBlocks m (m.terms (u.cur.bufLast .ab) (u.cur.bufLast .ws)) m.kb 0 (m.startRows (u.cur.bufLast .xs))) 0 u

theorem mul_of {i : Instr} {plan : Slot MatOp} {s : State} (h : mulB i plan s = true) :
    Runs i opMul s s ∧ ∃ m u, Reads plan s m u ∧ Touchable m.plan.touch u ∧ m.rows ≠ [] ∧ u.quiet
      ∧ ∃ r fl x, Computes (foldBlocks m (m.terms (u.cur.bufLast .ab) (u.cur.bufLast .ws)) m.kb 0 (m.startRows (u.cur.bufLast .xs)))
        0 u r fl x ∧ x.soft = [] := by
  simp only [mulB, Bool.and_eq_true] at h
  obtain ⟨m, u, hm, hp⟩ := okThen_ex h.2
  simp only [Bool.and_eq_true, Bool.not_eq_true', List.isEmpty_eq_false_iff] at hp
  exact ⟨runs_of h.1, m, u, hm, reads_of hp.1.1.1, hp.1.1.2, quiet_of hp.1.2, computes_ex hp.2⟩

theorem test_hyp_MatrixMultiplications :
    mulB (.mma opMul) (planMma opMul) (inM (.mma opMul)) = true
    ∧ mulB (.mmag opMul) (planMmag opMul) (inM (.mmag opMul)) = true
    ∧ mulB (.mconv opMul) (planMconv opMul) (inM (.mconv opMul)) = true :=
  ⟨by decide +kernel, by decide +kernel, by decide +kernel⟩

/-- A gather takes nothing where no operand is poison or foreign. -/
def gathersNone (l : List FVal) (g : Ar) : Bool :=
  let x := (gather l).run g
  x.1.isNone

/-- A poison accumulator; an infinity against an infinity of the other sign; finite terms with a nonzero and with a zero sum; the
three kinds of scale. -/
theorem test_hyp_FoldOfABlock :
    ((gather [decodeF .f32 0x7FF8_0005, oneVal, oneVal]).run default).1 = some 5
    ∧ (gathersNone [.inf false, .inf true, oneVal, oneVal] default = true ∧ blockSum [.inf false, .inf true] [[oneVal], [oneVal]] = none)
    ∧ ((scaleOf none).run default).1 = .fin ⟨false, 1, 0, false⟩ ∧ blockSum [oneVal] [[oneVal]] = some (.fin ⟨false, 1, 0, false⟩)
    ∧ decodeF .f32 0 = .fin ⟨false, 0, -149, false⟩
    ∧ (exMul (exMul ⟨false, 1, 0, false⟩ ⟨false, 1, 0, false⟩) ⟨false, 1, 0, false⟩).isZero = false
    ∧ (exMul (exMul ⟨false, 1, 0, false⟩ ⟨false, 1, 0, false⟩) ⟨false, 0, 0, false⟩).isZero = true
    ∧ (let w := 0x3F80
      let e : Nat := w / 2 ^ 7 % 2 ^ 8
      w < 2 ^ 15 ∧ 0 < e ∧ e < 255)
    ∧ (0x7F80 < 2 ^ 15 ∧ 0x7F80 / 2 ^ 7 % 2 ^ 8 = 255) := by
  decide +kernel

/-- An operation other than a multiplication meets what its statement asks of its resolved form. -/
def planB {α : Type} (i : Instr) (o : Op) (plan : Slot α) (touch : α → List (BufId × Nat × Nat)) (s : State) (p : α → State → Bool) : Bool :=
  runsIs i o s s && okThen plan s fun m u => okIs (checkTouch (touch m)) u () u && quietB u && p m u

theorem plan_of {α : Type} {i : Instr} {o : Op} {plan : Slot α} {touch : α → List (BufId × Nat × Nat)} {s : State} {p : α → State → Bool}
    (h : planB i o plan touch s p = true) :
    Runs i o s s ∧ ∃ m u, Reads plan s m u ∧ Touchable (touch m) u ∧ u.quiet ∧ p m u = true := by
  simp only [planB, Bool.and_eq_true] at h
  obtain ⟨m, u, hm, hp⟩ := okThen_ex h.2
  simp only [Bool.and_eq_true] at hp
  exact ⟨runs_of h.1, m, u, hm, reads_of hp.1.1, quiet_of hp.1.2, hp.2⟩

theorem test_hyp_WeightLoadsAndTileMoves :
    planB (.wld (op 0 0xF0 0xA0 0)) (op 0 0xF0 0xA0 0) (planWld (op 0 0xF0 0xA0 0)) (·.plan.touch) (inM (.wld (op 0 0xF0 0xA0 0)))
      (fun _ _ => true) = true
    ∧ (Runs (.accz (op 0 0 0 0)) (op 0 0 0 0) (inM (.accz (op 0 0 0 0)) []) (inM (.accz (op 0 0 0 0)) [])
      ∧ tileOf (op 0 0 0 0) < (inM (.accz (op 0 0 0 0)) []).cur.tiles ∧ Touchable [tileRange 0] (inM (.accz (op 0 0 0 0)) [])
      ∧ (inM (.accz (op 0 0 0 0)) []).quiet)
    ∧ planB (.accst (op 0 0xA0 0xF0 0xF0)) (op 0 0xA0 0xF0 0xF0) (planAccst (op 0 0xA0 0xF0 0xF0)) (·.plan.touch)
        (inM (.accst (op 0 0xA0 0xF0 0xF0)) [5, 0]) (fun p u => p.tens.isSome && computesB ((List.range p.rows).mapM fun i =>
          accConvert p.f p.rm p.sat (accRow (u.cur.bufLast .xs) p.tile p.cols i)) 0 u) = true
    ∧ planB (.accld (op 0 0xA0 0 0xF0)) (op 0 0xA0 0 0xF0) (planAccld (op 0 0xA0 0 0xF0)) (·.plan.touch)
        (inM (.accld (op 0 0xA0 0 0xF0)) [5, 0]) (fun p u => match p.tens with
          | some y => computesB ((List.range p.rows).mapM fun i => (List.range p.cols).mapM fun j =>
              widen ((u.cur.bufLast .ab).operand p.f (y.rowBit (p.row0 + i) (64 * p.colb + j)))) 0 u
          | none => false) = true :=
  ⟨by decide +kernel, ⟨runs_of (by decide +kernel), by decide +kernel, reads_of (by decide +kernel), quiet_of (by decide +kernel)⟩,
    by decide +kernel, by decide +kernel⟩

/-- va4 holds a CSET record: the input t4. -/
def convRecord (k : Kern) : Kern := { withTensors k with vregs := Tab.set k.vregs 4 ⟨4, 0, 4⟩ }

theorem test_hyp_MatrixStateOperations :
    planB (.gset (op 0 0xA0 0xA2 0xA4)) (op 0 0xA0 0xA2 0xA4) (planGset (op 0 0xA0 0xA2 0xA4)) (·.1.touch)
      (inM (.gset (op 0 0xA0 0xA2 0xA4)) [2, 0, 3, 0, 0xFF, 0]) (fun x _ => x.2.2.2.isNone) = true
    ∧ planB (.gset (op 0 0xA0 0xA2 0xA4)) (op 0 0xA0 0xA2 0xA4) (planGset (op 0 0xA0 0xA2 0xA4)) (·.1.touch)
        (inM (.gset (op 0 0xA0 0xA2 0xA4)) [2, 0, 3, 0, 2, 0]) (fun x u => match x.2.2.2 with
          | some (t, i) => okThen (readIndex (u.cur.bufLast .ab) t i) u fun _ v => decide (v = u)
          | none => false) = true
    ∧ (let o := op 0 4 0 0
      let s := inSlot 5 (.cset o) convRecord
      Runs (.cset o) o s s ∧ Reads (readRecord o.a) s 4 s ∧ Reads (tensorIn 4 .ab) s ⟨4, tensRec 0 1 0 2 4096 [64, 1, 1] [1, 64, 64], 0x0040_0000⟩ s
        ∧ Touchable (Tens.mk 4 (tensRec 0 1 0 2 4096 [64, 1, 1] [1, 64, 64]) 0x0040_0000).spans s)
    ∧ (∀ i ∈ [Instr.lend (op 0 1 0 0), .lendRet (op 0 0x81 0 0), .mwait (op 0 0 0 0)], ∀ o, i.op? = some o → runsIs i o (inM i []) (inM i []) = true)
    ∧ (inM (.lend (op 0 1 0 0)) []).cur.isLent 32 = false
    ∧ (let o := op 0 0x81 0 0
      let s := inSlot 5 (.lendRet o) fun k => k.setLent 32 true
      Runs (.lendRet o) o s s ∧ s.cur.isLent (lendBase o) = true) :=
  ⟨by decide +kernel, by decide +kernel,
    ⟨runs_of (by decide +kernel), reads_of (by decide +kernel), reads_of (by decide +kernel), reads_of (by decide +kernel)⟩,
    by
      intro i hi o ho
      simp only [List.mem_cons, List.not_mem_nil, or_false] at hi
      rcases hi with rfl | rfl | rfl <;> (simp only [Instr.op?, Option.some.injEq] at ho; subst ho; decide +kernel),
    by decide +kernel, runs_of (by decide +kernel), by decide +kernel⟩


/-! ## The E slot -/

/-- A tensor record with companions: AUX0, AUX1. -/
def tensAux (layout fmt buf ndm1 base : Nat) (sz str : List Nat) (a0 a1 : Nat) : BitVec 512 :=
  tensRec layout fmt buf ndm1 base sz str &&& ~~~(BitVec.ofNat 512 (2 ^ 320 * 0xFFFF)) ||| BitVec.ofNat 512 (2 ^ 320 * (a1 * 2 ^ 8 + a0))

/-- t0, t1: 256 binary32 of AB and of device memory; t2, t3, t4: key lists of AB; t5, t6, t7, t9, t10: index lists of AB; t8: a CSR
tensor; t11, t12: 16 x 16 binary32 of AB; t13: 64 of XS; t14: 64 natural numbers of AB. -/
def engineTensors : Tab (BitVec 512) :=
  [(0, tensRec 0 0 0 0 0 [256] [1]), (1, tensRec 0 0 4 0 0 [256] [1]), (2, tensRec 3 2 0 0 0x1000 [16] [1]),
    (3, tensRec 3 2 0 0 0x2000 [16] [1]), (4, tensRec 3 2 0 0 0x3000 [16] [1]), (5, tensRec 4 2 0 0 0x4000 [64] [1]),
    (6, tensRec 4 2 0 0 0x5000 [64] [1]), (7, tensRec 4 2 0 0 0x6000 [64] [1]), (8, tensAux 1 0 0 0 0x7000 [16] [1] 9 10),
    (9, tensRec 4 2 0 0 0x8000 [64] [1]), (10, tensRec 4 2 0 0 0x9000 [64] [1]), (11, tensRec 0 0 0 1 0xA000 [16, 16] [1, 16]),
    (12, tensRec 0 0 0 1 0xB000 [16, 16] [1, 16]), (13, tensRec 0 0 2 0 0 [64] [1]), (14, tensRec 0 2 0 0 0xC000 [64] [1])]

/-- The shadow set of the key engine: KE0 as given; length 4; two slots of a table. -/
def keySet (w0 : Nat) : Tab Word := [(0, BitVec.ofNat 64 w0), (1, 0xFF_0000_0004), (2, 0xFF_0000_0004), (3, 0x1_0000)]

/-- That of the circuit engine: leaves t11, outputs t12, no records, values t13; 4 rows; object t1, no spill area; source t0;
sums t14. -/
def circSet : Tab Word := [(0, 0x0DFF_0C0B), (1, 0x4_0000_0000), (2, 0xFF01), (3, 0x0003_0000_0000_0000), (4, 14)]

/-- That of the link engine: t0 over port 0; 1024 bytes. -/
def linkSet : Tab Word := [(2, 1024)]

/-- That of a copy channel: t1 to t0, 64 bytes. -/
def copySet : Tab Word := [(0, 0x0000_0100), (2, 0x003F_0000_0000)]

/-- The tensors, the KE0 word given, and the other shadow sets. -/
def withEngines (w0 : Nat) (k : Kern) : Kern :=
  { k with fmts := [(2, 0x0090_0000)], tdt := engineTensors, key := { k.key with sh := keySet w0 }
           circP := { k.circP with sh := circSet }, link := { k.link with sh := linkSet }, copy1 := { k.copy1 with sh := copySet } }

/-- An EGO to sb5. -/
def opEgo (e code : Nat) : Op := op 0b0100101 0 (BitVec.ofNat 8 e) (BitVec.ofNat 8 code)

/-- The operation stands in the E slot, its engines set. -/
def inE (i : Instr) (w0 : Nat) : State := inSlot 6 i (withEngines w0)

/-- An EGO meets what its statement asks: its checks pass, there is room, its regions are free and awake. -/
def egoB (i : Instr) (o : Op) (e : Nat) (plan : Slot (List Tens)) (more : Kern → List (BufId × Nat × Nat)) (s : State) : Bool :=
  runsIs i o s s && okThen plan s fun ts u =>
    let keys := dedup (coveredKeys ts ++ (more u.cur).flatMap fun r => regionKeys r.1 r.2.1 r.2.2)
    decide ((u.cur.port e).outstanding < 16) && keys.all (fun key => Tab.get 0 u.cur.own key == 0) && (u.cur.coldTensor ts).isNone
      && (more u.cur).all (fun r => (u.cur.coldByte r.1 r.2.1 r.2.2).isNone) && u.soft.isEmpty && u.cur.seg.isNone

theorem ego_of {i : Instr} {o : Op} {e : Nat} {plan : Slot (List Tens)} {more : Kern → List (BufId × Nat × Nat)} {s : State}
    (h : egoB i o e plan more s = true) :
    Runs i o s s ∧ ∃ ts u, Reads plan s ts u ∧ (u.cur.port e).outstanding < 16 ∧ u.cur.coldTensor ts = none
      ∧ (∀ key ∈ dedup (coveredKeys ts ++ (more u.cur).flatMap fun r => regionKeys r.1 r.2.1 r.2.2), Tab.get 0 u.cur.own key = 0)
      ∧ (∀ r ∈ more u.cur, u.cur.coldByte r.1 r.2.1 r.2.2 = none) ∧ u.soft = [] ∧ u.cur.seg = none := by
  simp only [egoB, Bool.and_eq_true] at h
  obtain ⟨ts, u, hr, hp⟩ := okThen_ex h.2
  simp only [Bool.and_eq_true, decide_eq_true_eq, List.all_eq_true, beq_iff_eq, Option.isNone_iff_eq_none, List.isEmpty_iff] at hp
  exact ⟨runs_of h.1, ts, u, hr, hp.1.1.1.1.1, hp.1.1.1.2, hp.1.1.1.1.2, hp.1.1.2, hp.1.2, hp.2⟩

/-- The key-engine operations with their KE0 words. -/
def keyCases : List ((Op → Instr) × Nat × Nat) :=
  [(.egoMerge, 0x10, 0xFF00_FF04_0302), (.egoInter, 0x11, 0xFF00_FF04_0302), (.egoExpand, 0x12, 0xFF00_0004_0008),
    (.egoHist, 0x13, 0xFF00_0005_0002), (.egoPsum, 0x14, 0xFF00_0007_0005), (.egoHbuild, 0x15, 0xFF06_0000_0002),
    (.egoHprobe, 0x16, 0xFF06_0005_0002), (.egoRules, 0x17, 0x0906_0705_0002), (.egoNnz, 0x18, 0xFF00_0005_0000)]

theorem test_hyp_EngineOperationsQueue :
    egoB (.egoCopy (opEgo 1 1)) (opEgo 1 1) 1 (planCopy (opEgo 1 1)) (fun _ => []) (inE (.egoCopy (opEgo 1 1)) 0) = true
    ∧ (∀ c ∈ keyCases, egoB (c.1 (opEgo 4 c.2.1)) (opEgo 4 c.2.1) 4 (planKey (opEgo 4 c.2.1)) (fun _ => [])
        (inE (c.1 (opEgo 4 c.2.1)) c.2.2) = true)
    ∧ (∀ c ∈ [(Instr.egoCload, 0x20, planCload), (.egoEval, 0x21, planEval), (.egoPupd, 0x22, planPupd), (.egoCstat, 0x24, planCstat)],
      egoB (c.1 (opEgo 5 c.2.1)) (opEgo 5 c.2.1) 5 c.2.2 Kern.nsRange (inE (c.1 (opEgo 5 c.2.1)) 0) = true)
    ∧ egoB (.egoPflip (opEgo 5 0x23)) (opEgo 5 0x23) 5 (do circFields []; return []) (fun _ => [])
        (inE (.egoPflip (opEgo 5 0x23)) 0) = true
    ∧ (∀ c ∈ [(Instr.egoLsend, 0x30), (.egoLrecv, 0x31), (.egoLradd, 0x32)],
      egoB (c.1 (opEgo 6 c.2)) (opEgo 6 c.2) 6 (planLink (opEgo 6 c.2)) (fun _ => []) (inE (c.1 (opEgo 6 c.2)) 0) = true) := by
  decide +kernel

/-- An open segment of the kernel in bundle `opened`. -/
def withSegment (g : Seg) (k : Kern) : Kern := { k with seg := some g }

/-- EGO.COPY with sixteen operations outstanding, in an open segment, and with a region of another engine. -/
theorem test_hyp_EngineOperationsHeldAndRefused :
    let i := Instr.egoCopy (opEgo 1 1)
    let s0 := inE i 0
    let full := s0.modKern 0 fun k => k.modPort 1 fun p => { p with q := List.replicate 16 ⟨1, 0, false, [], [], [], 0, 0, false, false, false⟩, last := 16 }
    let held := s0.modKern 0 (withSegment (Inhabited.default (α := Seg)))
    let lent := s0.modKern 0 fun k => k.giveRegions 3 (k.entryKeys 0)
    (runsIs i (opEgo 1 1) full full = true ∧ okThen (planCopy (opEgo 1 1)) full (fun _ u => decide (16 ≤ (u.cur.port 1).outstanding)) = true)
    ∧ (runsIs i (opEgo 1 1) held held = true ∧ okThen (planCopy (opEgo 1 1)) held (fun _ u => match u.cur.seg with
        | some g => decide (g.heldStores + g.held.length < 16)
        | none => false) = true)
    ∧ (runsIs i (opEgo 1 1) lent lent = true ∧ okThen (planCopy (opEgo 1 1)) lent (fun ts u =>
        decide ((u.cur.port 1).outstanding < 16) && (dedup (coveredKeys ts)).any fun key => Tab.get 0 u.cur.own key == 4) = true) := by
  decide +kernel

/-- sb4 holds a number; sb5 is poison; a vector register holds a record. -/
def withValue (v : Word) (r : BitVec 512) (k : Kern) : Kern :=
  { withRegs [(36, Reg.ofWord v), (37, Reg.tagged true 9)] (withEngines 0 k) with vregs := Tab.put VReg.zero k.vregs 4 ⟨r.setWidth 2048, 0, r.setWidth 2048⟩ }

/-- The operation stands in the E slot of that kernel. -/
def inEV (i : Instr) (v : Word) (r : BitVec 512 := 0) (f : Kern → Kern := id) : State := inSlot 6 i (f ∘ withValue v r)

/-- Regions of t14 belong to an engine, whose queue names them in an operation. -/
def lentOut (e : Nat) (named : Bool) (k : Kern) : Kern :=
  let k := k.giveRegions e (k.entryKeys 14)
  if named then k.modPort e fun p => { p with q := [⟨1, 0, false, [], [], k.entryKeys 14, 0, 0, false, false, false⟩], last := 1 } else k

theorem test_hyp_OwnersAndUnitPower :
    (∀ i ∈ [Instr.ownGive (op 0 14 0 4), .ownTake (op 0 14 0 4)], runsIs i (op 0 14 0 4) (inEV i 0) (inEV i 0) = true
      ∧ (inEV i 0).cur.tensorOk 14 = true ∧ ((inEV i 0).cur.entryKeys 14).all (fun key => Tab.get 0 (inEV i 0).cur.own key == 0) = true
      ∧ ((inEV i 0).cur.entryKeys 14).all (fun key => !(inEV i 0).cur.names 4 key) = true)
    ∧ (let s := inEV (.ownTake (op 0 14 0 4)) 0 0 (lentOut 4 true)
      Runs (.ownTake (op 0 14 0 4)) (op 0 14 0 4) s s
        ∧ (s.cur.entryKeys 14).all (fun key => Tab.get 0 s.cur.own key == 5 && s.cur.names 4 key) = true ∧ s.cur.entryKeys 14 ≠ [])
    ∧ (let s := inEV (.ownGive (op 0 14 0 4)) 0 0 (lentOut 3 false)
      Runs (.ownGive (op 0 14 0 4)) (op 0 14 0 4) s s
        ∧ (s.cur.entryKeys 14).any (fun key => Tab.get 0 s.cur.own key != 0 && Tab.get 0 s.cur.own key != 5) = true)
    ∧ (Runs (.ownGive (op 0 15 0 4)) (op 0 15 0 4) (inEV (.ownGive (op 0 15 0 4)) 0) (inEV (.ownGive (op 0 15 0 4)) 0)
      ∧ (inEV (.ownGive (op 0 15 0 4)) 0).cur.tensorOk 15 = false)
    ∧ (∀ i ∈ [Instr.bpwrRetain (op 0 0x24 0 0), .bpwrWake (op 0 0x24 0 0)], runsIs i (op 0 0x24 0 0) (inEV i 3) (inEV i 3) = true
      ∧ okIs (powerUnits (op 0 0x24 0 0)) (inEV i 3) (.ab, [0, 1]) (inEV i 3) = true
      ∧ ∀ n ∈ [0, 1], (inEV i 3).cur.ownedByte .ab (n * unitBytes .ab) (n * unitBytes .ab + unitBytes .ab - 1) 0 = none)
    ∧ (∀ v ∈ [5, 0x3_0000_0000_00, 0x400_0000_0000], HypA (.bwph (op 0 0x24 0 0)) (op 0 0x24 0 0) (inEV (.bwph (op 0 0x24 0 0)) v) (SVal.plain v))
    ∧ HypA (.bwph (op 0 0x25 0 0)) (op 0 0x25 0 0) (inEV (.bwph (op 0 0x25 0 0)) 0) ⟨9, true, true⟩
    ∧ (inEV (.bwph (op 0 0x24 0 0)) 5).cur.seg = none :=
  ⟨by decide +kernel, ⟨runs_of (by decide +kernel), by decide +kernel, by decide +kernel⟩, ⟨runs_of (by decide +kernel), by decide +kernel⟩,
    ⟨runs_of (by decide +kernel), by decide +kernel⟩, by decide +kernel,
    by
      intro v hv
      simp only [List.mem_cons, List.not_mem_nil, or_false] at hv
      rcases hv with rfl | rfl | rfl <;> exact hypA_of (by decide +kernel),
    hypA_of (by decide +kernel), by decide +kernel⟩

/-- An entry of the kernel's own coordinate waits in the inbox. -/
def withEntry (k : Kern) : Kern := { k with inbox := [⟨0, 0, ⟨5, 2, 5⟩, .arrived⟩] }

/-- The window of the stand-in's domain is broken. -/
def brokenWindow (s : State) : State := { s with doms := [(0, { Dom.new 0 0 1 with broken := true })] }

/-- XSEND meets what its statement asks, of a partner of its own coordinate. -/
def sendB (s : State) (broken : Bool) : Bool :=
  let o := op 0 4 0 0
  runsIs (.xsend o) o s s && okIs (readVector false o.a) s ⟨0, 0⟩ s && okIs (partnerCoord o) s SVal.zero s && okIs (partnerOf 0) s s.cur s
    && (s.dom? s.cur.dom).map (·.broken) == some broken

/-- XRECV at address 1024 of AB, or of XS. -/
def recvB (m : BitVec 8) (s : State) : Bool :=
  let o := op 0 0x24 0 m
  runsIs (.xrecv o) o s s && okIs (readScalar o.a) s (SVal.plain 1024) s && okIs (partnerCoord o) s SVal.zero s

theorem test_hyp_ExchangeOfVectors :
    (let s := inEV (.xsend (op 0 4 0 0)) 0
     sendB s false = true ∧ s.cur.seg = none ∧ sendB (brokenWindow s) true = true ∧ (brokenWindow s).cur.seg = none)
    ∧ (let s := inEV (.xsend (op 0 4 0 0)) 0 0 (withSegment (Inhabited.default (α := Seg)))
      sendB s false = true ∧ s.strayOpening s.cur.dom = true ∧ s.cur.seg.isSome = true)
    ∧ (let s := inEV (.xsend (op 0 4 0 0)) 0 0 (withSegment { (Inhabited.default : Seg) with rdv := true })
      sendB s false = true ∧ s.strayOpening s.cur.dom = false ∧ s.issue.closes = false ∧ s.cur.seg.isSome = true)
    ∧ (∀ f ∈ [id, withEntry], ∀ m ∈ [0, 4], recvB m (inEV (.xrecv (op 0 0x24 0 m)) 1024 0 f) = true
        ∧ (inEV (.xrecv (op 0 0x24 0 m)) 1024 0 f).cur.seg = none)
    ∧ (let s := inEV (.xrecv (op 0 0x24 0 0)) 1024
      oldestEntry 0 (s.dcyc s.cur.dom) s.cur.inbox = none ∧ s.cur.ownedByte .ab 1024 1279 0 = none ∧ s.cur.coldByte .ab 1024 1279 = none
        ∧ 1024 + 256 ≤ s.cur.limit .ab ∧ recvB 0 (brokenWindow s) = true)
    ∧ (let s := inEV (.xrecv (op 0 0x24 0 0)) 1024 0 withEntry
      oldestEntry 0 (s.dcyc s.cur.dom) s.cur.inbox = some (0, ⟨0, 0, ⟨5, 2, 5⟩, .arrived⟩)) := by
  decide +kernel

/-- The operands of an exchange that trap: a tagged address, tagged coordinates, an address that is misaligned or too large. -/
theorem test_hyp_ExchangeOperandsTrap :
    (let o := op 0 0x25 0 0
     let s := inEV (.xrecv o) 0
     HypA (.xrecv o) o s ⟨9, true, true⟩ ∧ Reads (partnerCoord o) s SVal.zero s)
    ∧ HypA (.xrecv (op 0 0x24 0 0)) (op 0 0x24 0 0) (inEV (.xrecv (op 0 0x24 0 0)) 3) (SVal.plain 3)
    ∧ HypA (.xrecv (op 0 0x24 0 0)) (op 0 0x24 0 0) (inEV (.xrecv (op 0 0x24 0 0)) 0x100_0000) (SVal.plain 0x100_0000)
    ∧ (∀ r ∈ [(0x25, SVal.mk 9 true true), (0x24, SVal.plain 5)], let o := op 0 4 r.1 0
      let s := inEV (.xsend o) 5
      Runs (.xsend o) o s s ∧ Reads (readVector false o.a) s ⟨0, 0⟩ s ∧ Reads (partnerCoord o) s r.2 s
        ∧ ∀ y ∈ s.kerns, y.dom = s.cur.dom → (5 : Word) ≠ BitVec.ofNat 64 y.coordNat) :=
  ⟨⟨hypA_of (by decide +kernel), reads_of (by decide +kernel)⟩, hypA_of (by decide +kernel), hypA_of (by decide +kernel),
    by
      intro r hr
      simp only [List.mem_cons, List.not_mem_nil, or_false] at hr
      rcases hr with rfl | rfl <;>
        exact ⟨runs_of (by decide +kernel), reads_of (by decide +kernel), reads_of (by decide +kernel), by decide +kernel⟩⟩

/-- The kernel is allotted two copy channels. -/
def twoChannels (k : Kern) : Kern := { k with res := { k.res with copy := 2 } }

theorem test_hyp_EngineRegistersAndChecks :
    (∀ v ∈ [0x24, 0x25], let o := op 0 v 0 0x19
      let s := inEV (.ewr o) 7 0 twoChannels
      HypA (.ewr o) o s (if v = 0x24 then SVal.plain 7 else ⟨9, true, true⟩))
    ∧ (∀ m ∈ [0x19, 0x3D], let o := op 0b0100011 0 0 m
      let s := inEV (.erd o) 0 0 twoChannels
      Runs (.erd o) o s s ∧ s.soft = [])
    ∧ (∀ m ∈ [0x1B, 0x1E, 0x1F], let s := inEV (.erd (op 0b0100011 0 0 m)) 0 0 twoChannels
      s.issue.active = true ∧ s.cur.allots (m.extractLsb' 0 3).toNat = decide (m = 0x1E))
    ∧ (∀ c ∈ keyCases, ∀ n < 3, let s := (inE (c.1 (opEgo 4 c.2.1)) 0).modKern 0 fun k => { k with key := { k.key with sh := [(n, -1)] } }
      runsIs (c.1 (opEgo 4 c.2.1)) (opEgo 4 c.2.1) s s = true ∧ keyReserved n (Tab.get 0 s.cur.key.sh n).toNat = true
        ∧ ∀ j < n, keyReserved j (Tab.get 0 s.cur.key.sh j).toNat = false)
    ∧ (∀ n ∈ [0, 2, 15], let s := (inE (.egoPflip (opEgo 5 0x23)) 0).modKern 0 fun k => { k with circP := { k.circP with sh := [(n, -1)] } }
      runsIs (.egoPflip (opEgo 5 0x23)) (opEgo 5 0x23) s s = true ∧ s.cur.allots 5 = true ∧ circReserved n (Tab.get 0 s.cur.circP.sh n).toNat = true
        ∧ ∀ j < n, circReserved j (Tab.get 0 s.cur.circP.sh j).toNat = false)
    ∧ (∀ c ∈ [(Instr.egoLsend, 0x30), (.egoLrecv, 0x31), (.egoLradd, 0x32)],
      let s := (inE (c.1 (opEgo 6 c.2)) 0).modKern 0 fun k => { k with link := { k.link with sh := [(0, -1)] } }
      runsIs (c.1 (opEgo 6 c.2)) (opEgo 6 c.2) s s = true ∧ linkReserved 0 (Tab.get 0 s.cur.link.sh 0).toNat = true) :=
  ⟨by
      intro v hv
      simp only [List.mem_cons, List.not_mem_nil, or_false] at hv
      rcases hv with rfl | rfl <;> exact hypA_of (by decide +kernel),
    by
      intro m hm
      simp only [List.mem_cons, List.not_mem_nil, or_false] at hm
      rcases hm with rfl | rfl <;> exact ⟨runs_of (by decide +kernel), by decide +kernel⟩,
    by decide +kernel, by decide +kernel, by decide +kernel, by decide +kernel⟩

/-- A pattern record: loads of t0, 64 elements a pop. -/
def patRec : BitVec 512 := BitVec.ofNat 512 (2 ^ 64 * 63 + 2 ^ 128)

theorem test_hyp_TensorsFormatsAndStreams :
    (∀ r ∈ [tensRec 0 0 0 0 0 [4] [1], 0, BitVec.ofNat 512 (2 ^ 63 + 2 ^ 62)], ∀ m ∈ [20, 255], let o := op 0 4 0 m
      let s := inEV (.tdef o) 0 r
      Runs (.tdef o) o s s ∧ Reads (readRecord o.a) s r s ∧ m.toNat < s.cur.res.tdt)
    ∧ ((entOf (tensRec 0 0 0 0 0 [4] [1])).malformed = false ∧ (entOf (BitVec.ofNat 512 (2 ^ 63 + 2 ^ 62))).malformed = true
      ∧ (entOf 0).valid = false)
    ∧ (∀ i ∈ [Instr.trd, .fmtset], ∀ v ∈ [6, 8, 0x0040_0000], let o := if v = 0x0040_0000 then op 0 0x24 0 1 else op 0b0100011 0x24 0 1
      (v = 0x0040_0000 → HypA (.fmtset o) o (inEV (.fmtset o) v) (SVal.plain v))
        ∧ (v ≠ 0x0040_0000 → HypA (.trd o) o (inEV (.trd o) v) (SVal.plain v)))
    ∧ (HypA (.trd (op 0b0100011 0x25 0 1)) (op 0b0100011 0x25 0 1) (inEV (.trd (op 0b0100011 0x25 0 1)) 0) ⟨9, true, true⟩
      ∧ HypA (.fmtset (op 0 0x25 0 1)) (op 0 0x25 0 1) (inEV (.fmtset (op 0 0x25 0 1)) 0) ⟨9, true, true⟩
      ∧ HypA (.fmtset (op 0 0x24 0 1)) (op 0 0x24 0 1) (inEV (.fmtset (op 0 0x24 0 1)) 9) (SVal.plain 9)
      ∧ (Fmt.ofDesc 9).isNone = true ∧ (Fmt.ofDesc 0x0040_0000).isSome = true)
    ∧ (∀ r ∈ [patRec, -1], let o := op 0 4 0 2
      let s := inEV (.spat o) 0 r
      Runs (.spat o) o s s ∧ Reads (readRecord o.a) s r s ∧ 2 < s.cur.res.st ∧ s.cur.recordBad r = decide (r = -1))
    ∧ (∀ f ∈ [id, withStream 0], let s := inEV (.srst (op 0 0 0 1)) 0 0 f
      Runs (.srst (op 0 0 0 1)) (op 0 0 0 1) s s ∧ 1 < s.cur.res.st)
    ∧ (Tab.get? (inEV (.srst (op 0 0 0 1)) 0 0 (withStream 0)).cur.streams 1).isSome = true
    ∧ Runs (.srstClr (op 0 0 0 1)) (op 0 0 0 1) (inEV (.srstClr (op 0 0 0 1)) 0) (inEV (.srstClr (op 0 0 0 1)) 0) :=
  ⟨by
      intro r hr m hm
      simp only [List.mem_cons, List.not_mem_nil, or_false] at hr hm
      rcases hr with rfl | rfl | rfl <;> rcases hm with rfl | rfl <;>
        exact ⟨runs_of (by decide +kernel), reads_of (by decide +kernel), by decide +kernel⟩,
    by decide +kernel,
    by
      intro i _ v hv
      simp only [List.mem_cons, List.not_mem_nil, or_false] at hv
      rcases hv with rfl | rfl | rfl
      · exact ⟨fun h => absurd h (by decide), fun _ => hypA_of (by decide +kernel)⟩
      · exact ⟨fun h => absurd h (by decide), fun _ => hypA_of (by decide +kernel)⟩
      · exact ⟨fun _ => hypA_of (by decide +kernel), fun h => absurd rfl h⟩,
    ⟨hypA_of (by decide +kernel), hypA_of (by decide +kernel), hypA_of (by decide +kernel), by decide +kernel, by decide +kernel⟩,
    by
      intro r hr
      simp only [List.mem_cons, List.not_mem_nil, or_false] at hr
      rcases hr with rfl | rfl <;>
        exact ⟨runs_of (by decide +kernel), reads_of (by decide +kernel), by decide +kernel, by decide +kernel⟩,
    by
      intro f hf
      simp only [List.mem_cons, List.not_mem_nil, or_false] at hf
      rcases hf with rfl | rfl <;> exact ⟨runs_of (by decide +kernel), by decide +kernel⟩,
    by decide +kernel, runs_of (by decide +kernel)⟩

/-! ## Fences, posts, traps -/

/-- sa4 is 0 and sa6 the queue 1, bound to context 0. -/
def postState : State :=
  let o := op 0 4 6 0
  let s := inSlot 0 (.qpost o) (withRegs [(4, Reg.ofWord 0), (6, Reg.ofWord 1)])
  { s with queues := [(1, { Queue.reset with st := .running, ctx := 0 })] }

theorem test_hyp_FencesPostsAndFlagsOfControl :
    (∀ i ∈ [Instr.fenceFull (op 0 0 0 0x0C), .fenceStore (op 0 0 0 0x0C), .fenceLoad (op 0 0 0 0x0C), .cuienOn (op 0 0 0 0), .cuienOff (op 0 0 0 0),
      .halt (op 0 0 0 0)], ∀ o, i.op? = some o → runsIs i o (inSlot 0 i) (inSlot 0 i) = true)
    ∧ FlowOk (inSlot 0 (.fenceFull (op 0 0 0 0x0C)))
    ∧ (HypAB (.qpost (op 0 4 6 0)) (op 0 4 6 0) postState (SVal.plain 0) (SVal.plain 1) ∧ 128 ≤ postState.cur.limit .ab
      ∧ Reads (do checkOwner .ab 0 127; checkAwake .ab 0 127) postState () postState ∧ (postState.queue 1).st ≠ .unbound
      ∧ (postState.queue 1).ctx = postState.cur.ctx ∧ Reads (touchBuf .ab 0 128) postState () postState ∧ postState.cur.seg = none
      ∧ FlowOk (postState.postPacket postState.issue.kid 1 (postState.cur.ab.mem.read 0 128) (postState.core postState.cur.core).pseq))
    ∧ FlowOk ((inSlot 0 (.cuienOn (op 0 0 0 0))).ctl fun c => { c with cuien := true })
    ∧ (inSlot 0 (.halt (op 0 0 0 0))).cur.ctl.handler = false
    ∧ (let s := inSlot 0 (.rft (op 0 0 0 0)) inHandler
      Runs (.rft (op 0 0 0 0)) (op 0 0 0 0) s s ∧ s.cur.ctl.handler = true ∧ s.cur.spr.tpc.toNat / 2 ^ 11 < 7
        ∧ isAllotted s.cur.res.is (s.cur.spr.tpc.toNat % 2 ^ 11) = true) :=
  ⟨by
      intro i hi o ho
      simp only [List.mem_cons, List.not_mem_nil, or_false] at hi
      rcases hi with rfl | rfl | rfl | rfl | rfl | rfl <;> (simp only [Instr.op?, Option.some.injEq] at ho; subst ho; decide +kernel),
    flowOk_of (by decide +kernel),
    ⟨hypAB_of (by decide +kernel), by decide +kernel, reads_of (by decide +kernel), by decide +kernel, by decide +kernel,
      reads_of (by decide +kernel), by decide +kernel, flowOk_of (by decide +kernel)⟩,
    flowOk_of (by decide +kernel), by decide +kernel, runs_of (by decide +kernel), by decide +kernel⟩

theorem test_hyp_TrapAndBreakpointAreTaken :
    HypA (.trap opTr) opTr (inSlot 0 (.trap opTr) cRegs) (SVal.plain 7)
    ∧ HypA (.brk opTr) opTr (inSlot 0 (.brk opTr) cRegs) (SVal.plain 7) ∧ (inSlot 0 (.brk opTr) cRegs).hub.brk = false
    ∧ (inSlot 0 (.brk opTr) cRegs).hub.debug = false
    ∧ (let s := inSlot 0 (.brk opTr) cRegs
      let s := { s with hub := { s.hub with debug := true } }
      HypA (.brk opTr) opTr s (SVal.plain 7) ∧ s.hub.debug = true ∧ FlowOk (s.decide fun i => { i with wait := .debug })) :=
  ⟨hypA_of (by decide +kernel), hypA_of (by decide +kernel), by decide +kernel, by decide +kernel, hypA_of (by decide +kernel), by decide +kernel,
    flowOk_of (by decide +kernel)⟩

theorem test_hyp_TrapEntrySavesAndVectors :
    ((idle.kern? 0).isSome ∧ (idle.dom? (idle.kern 0).dom).isSome ∧ (idle.kern 0).ctl.handler = false
      ∧ isAllotted (idle.kern 0).res.is ((idle.kern 0).spr.tvec.toNat + 16 * (0x2A / 16)) = true)
    ∧ ((idle inHandler).kern? 0).isSome ∧ ((idle inHandler).kern 0).ctl.handler = true := by decide +kernel

theorem test_hyp_ReturnFromHandlerRestores :
    (let s := idle fun k => { k with ctl := { k.ctl with handler := true, froze := true, trapAt := 5 }, latSaved := [(1, .sc 3 false false 3)] }
    (s.kern? 0).isSome ∧ (s.kern 0).ctl.froze = true ∧ (s.dom? (s.kern 0).dom).isSome
      ∧ ∀ z ∈ s.kerns, z.dom = (s.kern 0).dom → z.kid ≠ 0 → ¬ (z.ctl.handler = true ∧ z.ctl.froze = true)) := by decide +kernel

/-! ## Events of a core -/

/-- The bundle lies at the kernel's program counter. -/
def atPc (s : State) (b : BitVec 512) : State :=
  s.modCore 0 fun c => { c with is := [((s.kern 0).ctl.pc.toNat, b)] }

/-- A bundle of one NOP. -/
def nopBundle : BitVec 512 := bundleOf 0 ((encode (.nop (op 0 0 0 0))).getD 0) []

/-- A bundle that reads sa4 in slot 1. -/
def movBundle : BitVec 512 := bundleOf 1 ((encode (.mov movOk)).getD 0) []

/-- sa4 waits for a load. -/
def pendingReg (k : Kern) : Kern := { k with regs := Tab.put Reg.zero k.regs 4 { Reg.zero with pend := true } }

/-- The kernel's domain, changed. -/
def withDom (s : State) (f : Dom → Dom) : State := { s with doms := s.doms.map fun d => (d.1, f d.2) }

/-- The kernel stands before the bundle at its program counter, awaits nothing, and no other event comes first. -/
def readyB (s : State) : Bool :=
  let x := s.kern 0
  (s.kern? 0).isSome && s.atBundle x && s.before x == none && !x.waiting && x.ctl.wait == .none
    && (x.ctl.segDue.isNone || x.seg.isSome)

/-- A bundle of one ACCZ, which stands in the M slot. -/
def matBundle : BitVec 512 := bundleOf 5 ((encode (.accz (op 0 0 0 0))).getD 0) []

/-- A segment that its first bundle opened, with an exchange in it; a CKPT bundle stands next. -/
def cutSegment : State :=
  atPc (idle (withSegment { (Inhabited.default : Seg) with exchange := true, count := 1 })) (nopBundle ||| 1)

theorem test_hyp_BundlesAndWhatPrecedesThem :
    (∀ s ∈ [atPc idle nopBundle, atPc idle (nopBundle ||| 0x8000), atPc (idle pendingReg) movBundle,
        (atPc idle nopBundle).modCore 0 fun c => { c with isUe := [((idle.kern 0).ctl.pc).toNat] },
        atPc (idle fun k => { k with ctl := { k.ctl with xOwed := [5] } }) nopBundle, atPc (idle inHandler) matBundle, cutSegment],
      readyB s = true)
    ∧ (headerOk (nopBundle ||| 0x8000) = false ∧ headerOk nopBundle = true)
    ∧ (let s := atPc idle nopBundle
      let u := s.correctFetch (s.kern 0).core (s.kern 0).ctl.pc.toNat
      u.cutsExchange (s.kern 0) = false ∧ u.hold? (s.kern 0) nopBundle = none ∧ (s.kern 0).seg = none
        ∧ hdrCkpt (bundleHeader nopBundle) = false ∧ (s.kern 0).ctl.slot = 0 ∧ hdrPresent (bundleHeader nopBundle) 0 = true
        ∧ s.nextBundle (s.kern 0) = nopBundle ∧ (s.kern 0).ctl.handler = false ∧ (s.kern 0).ctl.xOwed = [])
    ∧ (let s := atPc (idle pendingReg) movBundle
      let u := s.correctFetch (s.kern 0).core (s.kern 0).ctl.pc.toNat
      u.cutsExchange (s.kern 0) = false ∧ u.hold? (s.kern 0) movBundle = some ⟨true, none⟩ ∧ headerOk movBundle = true)
    ∧ (headerOk matBundle = true ∧ hdrPresent (bundleHeader matBundle) 5 = true)
    ∧ (let s := cutSegment
      (s.correctFetch (s.kern 0).core (s.kern 0).ctl.pc.toNat).cutsExchange (s.kern 0) = true ∧ headerOk (s.nextBundle (s.kern 0)) = true)
    ∧ (let s := idle fun k => { k with spr := { k.spr with fpOwed := [5] } }
      s.before (s.kern 0) = some (.fpTrap 0))
    ∧ (∀ b ∈ [false, true],
      let s := idle fun k => { k with ctl := { k.ctl with stepOwed := true } }
      let s := { s with hub := { s.hub with debug := b } }
      s.before (s.kern 0) = some (.step 0) ∧ s.hub.debug = b)
    ∧ (let s := atPc (idle fun k => { k with ctl := { k.ctl with cuien := true, cui := [(1, 7)] } }) (nopBundle ||| 4)
      s.before (s.kern 0) = some (.cui 0) ∧ firstCui (s.kern 0).ctl.cui = some (1, 7))
    ∧ (let s := withDom (atPc idle (nopBundle ||| 2)) fun d => { d with preempt := true }
      s.before (s.kern 0) = some (.preemptionPointStop 0)) := by
  decide +kernel

/-- A wait for identifier 7 of engine 4: still to come, reached, and reached with a POISON report. -/
def waitsFor (xdone : Nat) (r : List (BitVec 32 × Origin)) : State :=
  idle fun k => { k with ctl := { k.ctl with wait := .waitx 4 7 } }.modPort 4 fun p => { p with last := 9, xdone := BitVec.ofNat 32 xdone, reports := r }

theorem test_hyp_WaitsEnd :
    (∀ c ∈ [(3, []), (8, []), (8, [(7, 5)])], let s := waitsFor c.1 c.2
      (s.kern? 0).isSome = true ∧ s.atBundle (s.kern 0) = true ∧ s.before (s.kern 0) = none ∧ (s.kern 0).ctl.wait = .waitx 4 7
        ∧ (s.kern 0).waiting = decide (c.1 = 3))
    ∧ (((waitsFor 8 []).kern 0).port 4).report 7 = none ∧ (((waitsFor 8 [(7, 5)]).kern 0).port 4).report 7 = some (7, 5) := by
  decide +kernel

/-- A translation of an RC page to a physical address. -/
def trans (va pa : Nat) : Trans := ⟨va, pa, .rc, false, false, false, true, true⟩

/-- A port access of kernel 0: its number, kind, address and data, translated. -/
def item (seq : Nat) (o : POp) (va : Nat) (v : Word) : PItem :=
  ⟨seq, 0, o, va, true, v, none, false, 0, none, false, false, 0, none, some 4, some (trans va va), .waiting, false, none, 0, 0, [], 0, [], 0, 0⟩

/-- A page of RC kind at address 0, in group 0, which is ACTIVE. -/
def withDevice (s : State) : State :=
  { s with tlb := [⟨0, 0, 0, 2 ^ 16, 59⟩], pans := [(0, { Pan.reset with st := .active, alloc := true })] }

/-- Core 0 has these port accesses. -/
def withPort (l : List PItem) : State := withDevice (idle.modCore 0 fun c => { c with port := l, pseq := 9 })

/-- A copy of 64 bytes from device memory runs on channel 1. -/
def copyRun : State :=
  let ts := (withEngines 0 standIn).capture 1 ++ (withEngines 0 standIn).capture 0
  let o : Eop := ⟨1, 1, false, copySet, ts, [], 0, 0, false, true, false⟩
  let r := Run.start o
  withDevice (idle fun k => (withEngines 0 k).modPort 1 fun p => { p with
    last := 1, q := [o], runs := [{ r with mem := { r.mem with want := [⟨0, 0, 64⟩] } }] })

/-- Access j of engine e of kernel 0, a read, may be placed. -/
def placesB (u : State) (e j : Nat) : Bool :=
  let k := u.kern 0
  match ((k.port e).cands.drop j).head? with
  | some (r, c) => !u.heldBy (.engine k.kid e) && u.portPast k r.op && !c.isWrite
      && (match u.cached (k.core / 8) (c.ctx k r.op) c.va c.isWrite with | some y => u.kindAllows k.kid e r c y | none => false)
  | none => false

theorem test_hyp_AccessesReachTheirLines :
    (let s := withPort [item 0 .store 64 5]
     s.access? 0 0 = some (item 0 .store 64 5, trans 64 64) ∧ (item 0 .store 64 5).op.isEntry = true ∧ s.mayGo 0 (item 0 .store 64 5) (trans 64 64) = true)
    ∧ (let x := item 0 .load 64 0
      let s := withPort [x]
      s.access? 0 0 = some (x, trans 64 64) ∧ x.op.isMld = true ∧ s.answer 0 x (trans 64 64) = .send ∧ s.mayGo 0 x (trans 64 64) = true)
    ∧ (let x := item 1 .load 64 0
      let s := withPort [item 0 .store 64 5, x]
      s.access? 0 1 = some (x, trans 64 64) ∧ x.op.isMld = true ∧ s.answer 0 x (trans 64 64) = .forward 5 none
        ∧ s.mayForward 0 x (trans 64 64) = true)
    ∧ (let s := withPort [item 0 .store 64 5, item 1 .store 72 6]
      ((s.core 0).port.drop 0).head? = some (item 0 .store 64 5) ∧ nextEntry ((s.core 0).port.drop 0).tail = some (item 1 .store 72 6)
        ∧ s.mayMerge 0 (item 0 .store 64 5) (item 1 .store 72 6) = true)
    ∧ (let u := copyRun.copyGo 0 1
      (copyRun.kern? 0).isSome = true ∧ copyRun.mayAccess (copyRun.kern 0) 1 = true
        ∧ placesB u 1 0 = true)
    ∧ (let e : LEntry := ⟨.source 3 0, false, 0, 64, 8, [], none, trans 64 64, 0⟩
      let s := { State.reset with ingress := [(3, [e])] }
      ((Tab.get [] s.ingress 3).drop 0).head? = some e ∧ s.sourceQueued 3 = false ∧ (s.pan (groupOf e.pa)).alloc = false
        ∧ ((withDevice s).pan (groupOf e.pa)).alloc = true) := by
  decide +kernel

/-- An entry at the head of line queue 1 for a port access. -/
def lineEntry (seq : Nat) (w : Bool) : LEntry := ⟨.port 0 seq, w, 64, 64, 8, [], none, trans 64 64, 0⟩

/-- A port access at its line queue, which is ready; memory is given. -/
def atLine (o : POp) (f : PItem → PItem := id) (m : Memory := []) : State :=
  { withPort [f { item 0 o 64 5 with st := .queued }] with lines := [(1, [lineEntry 0 o.isEntry])], mem := m }

/-- `State.readyToPerform`, evaluated, for entry 0 of core 0. -/
def headB (s : State) (x : LEntry) (i : PItem) : Bool :=
  s.line 1 == [x] && decide (groupOf x.pa < Config.groups) && (s.pan (groupOf x.pa)).st == .active && !(s.pan (groupOf x.pa)).init
    && x.agent == .port 0 i.seq && (s.core 0).port.find? (fun y => y.seq == i.seq) == some i && decide (1 = x.pa / 64)
    && decide (x.pa % i.len = 0) && decide (x.tr.pa = x.pa) && !x.tr.enc && decide (s.lineTag 1 = 0)
    && (sectorsOf x.pa i.len).all fun n => !s.ue.contains n && s.physMark n == none

theorem ready_of {s : State} {x : LEntry} {i : PItem} (h : headB s x i = true) : s.readyToPerform 1 0 x [] i := by
  simpa [headB, State.readyToPerform, and_assoc] using h

/-- Device memory whose root table leads to one leaf page at 0. -/
def mapped : Memory := [(0, 0x01), (2, 0x01), (0x10000, 0x3B)]

/-- A load without a translation. -/
def untranslated (m : Memory) : State :=
  { withPort [{ item 0 .load 64 0 with tr := none }] with mem := m, tlb := [], ctxs := [(0, { Ctx.reset with en := true })] }

/-- The accesses that the queue of line 1 performs: a load, a store and a merged one, atomics with an untagged and a tagged operand,
CAS with a tagged compare value, FADD. -/
def performed : List (POp × (PItem → PItem)) :=
  [(.load, id), (.store, id), (.store, fun i => { i with under := [⟨1, 72, true, 7, none, false⟩] }), (.amo 0, id), (.red 2, id),
    (.amo 8, fun i => { i with poison := some 9 }), (.amo 10, fun i => { i with cmpPoison := some 9 }), (.amo 1, fun i => { i with w8 := false })]

theorem test_hyp_HeadsReadyToPerform : ∀ c ∈ performed,
    (atLine c.1 c.2).readyToPerform 1 0 (lineEntry 0 c.1.isEntry) [] (c.2 { item 0 c.1 64 5 with st := .queued }) := by
  have h : ∀ c ∈ performed, headB (atLine c.1 c.2) (lineEntry 0 c.1.isEntry) (c.2 { item 0 c.1 64 5 with st := .queued }) = true := by
    decide +kernel
  exact fun c hc => ready_of (h c hc)

theorem test_hyp_LinesPerformTheirHead :
    (∀ q ∈ (atLine .load).older 0 { item 0 .load 64 5 with st := .queued } (trans 64 64), q.1.held = false)
    ∧ (∀ c ∈ performed, c.1 = .store → ∀ p ∈ (c.2 (item 0 c.1 64 5)).parts, p.poison = none ∧ p.va / 64 = 1 ∧ p.va % p.len = 0)
    ∧ poisonOrigin 2 0 false = none
    ∧ (let e := { lineEntry 0 true with pa := Config.groups * 12 * 2 ^ 30 }
      let s := { State.reset with lines := [(7, [e])] }
      s.line 7 = [e] ∧ Config.groups ≤ groupOf e.pa)
    ∧ (let x := { item 0 .load 64 0 with st := .performed, result := some (5, some 9) }
      let s := withPort [x]
      (((s.core (s.kern 0).core).toLand 0).drop 0).head? = some x ∧ x.dst = some 4)
    ∧ (let r : WalkReq := ⟨0, 0, 0, 64, false, some 0, none⟩
      (∀ m ∈ [mapped, []], ((untranslated m).walks.drop 0).head? = some r)
        ∧ ((untranslated mapped).walk 0 64 false).toOption.isSome = true ∧ ((untranslated []).walk 0 64 false).toOption.isNone = true) := by
  decide +kernel

/-- A vector entry that flies to the kernel. -/
def flyIn (n : Nat) (k : Kern) : Kern := { k with inbox := List.replicate n ⟨0, 0, VReg.zero, .arrived⟩ ++ [⟨0, 0, VReg.zero, .flying⟩] }

theorem test_hyp_CoreAndDomainTiming :
    (∀ n ∈ [0, 8], let s := idle (flyIn n)
      s.arriving (s.kern 0) = some (n, ⟨0, 0, VReg.zero, .flying⟩) ∧ ((s.kern 0).inbox.filter fun y => y.st != .flying).length = n)
    ∧ (let s := idle fun k => { withStream 0 k with cyc := 20 }
      (s.kern 0).indexDue 1 = false ∧ (s.kern 0).fetchDue 1 = true ∧ (Tab.get? (s.kern 0).streams 1).isSome = true)
    ∧ (let s := idle fun k => { withEngines 0 k with cyc := 20, streams := [(1, { strm 0 with itens := some ⟨5, tensRec 4 2 0 0 0x4000 [64] [1], 0x0090_0000⟩ })] }
      (s.kern 0).indexDue 1 = true)
    ∧ (let s := idle fun k => { inLoop k with ctl := { (inLoop k).ctl with boundary := true } }
      (s.kern 0).ctl.boundary = true ∧ (s.kern 0).ctl.handler = false ∧ (s.kern 0).ctl.inner.isSome = true)
    ∧ (let s := withDom (idle fun k => { k with ctl := { k.ctl with wait := .sync false } }) fun d => { d with restart := some 0 }
      ((s.dom? 0).map (·.restart)) = some (some 0) ∧ s.domRuns 0 = true ∧ ((s.dom? 0).map (·.frozen)) = some false ∧ s.anyYield 0 = false)
    ∧ (((idle.dom? 0).map (·.started)) = some true ∧ ((idle.dom? 0).map (·.throttle)) = some 0) := by
  decide +kernel

theorem test_hyp_ResultsAndDelayedWritesLand :
    (let f : Flight := ⟨0, 0, 1, 3, .sreg (some 4) (Reg.ofWord 7), true, false, 1, false⟩
    let s := idle fun k => { k with flights := [f], spr := { k.spr with fpctl := 1 } }
    (s.kern? 0).isSome = true ∧ (s.kern 0).dueFlights = [f] ∧ f.flags &&& (s.kern 0).spr.fpctl ≠ 0)
    ∧ (∀ kind ∈ [DKind.stream, .buffer, .matrix, .granule, .accst, .exchange],
      let d : DWrite := ⟨0, kind, [⟨.ab, 64, [1, 2], none⟩], [], [], [], false, 0, 0, [], 0, 0⟩
      let s := idle fun k => { k with dw := [d] }
      (s.kern 0).dueWrite = some (0, d) ∧ (s.kern 0).ab.ue = [] ∧ (s.kern 0).ws.ue = [] ∧ (s.kern 0).xs.ue = []
        ∧ (s.kern 0).ns.ue = [] ∧ (dropAt (s.kern 0).dw 0).any d.contests = false)
    ∧ (let e : DWrite := ⟨0, .exchange, [⟨.xs, 0, [1, 2, 3, 4], none⟩, ⟨.xs, 4, [1, 2, 3, 4], none⟩], [], [], [], false, 0, 0, [], 0, 0⟩
      let d : DWrite := ⟨0, .buffer, [⟨.xs, 4, [5, 6, 7, 8], none⟩], [], [], [], false, 0, 0, [], 0, 0⟩
      let s := idle fun k => { k with dw := [e, d] }
      (s.kern 0).dueWrite = some (1, d) ∧ d.contests e = true ∧ (e.writes.map d.reaches) = [false, true]) := by
  decide +kernel

/-! ## Pans, the hub, segments -/

/-- Group 0 in this state. -/
def withPan (p : Pan) : State := { State.reset with pans := [(0, p)] }

/-- Device memory mapped for context 0, its group ACTIVE. -/
def hubReady (s : State) : State :=
  { s with mem := mapped, ctxs := [(0, { Ctx.reset with en := true, logaddr := 0x1000 })]
           pans := [(0, { Pan.reset with st := .active, alloc := true })] }

/-- A write of the hub is made. -/
def writesB (s : State) (ctx va : Nat) (b : List Byte) : Bool := match s.hubWrite ctx va b with | .ok (_, ok) => ok | .error _ => false

theorem test_hyp_PansAndTheHubsOwnWork :
    (let s := withPan { Pan.reset with st := .active, alloc := true }
     let s := { s with hub := { s.hub with time := 60 } }
     s.groupQuiet 0 = true ∧ (s.pan 0).st = .active ∧ (s.pan 0).init = false ∧ (s.pan 0).touched + 60 ≤ s.hub.time)
    ∧ (let s := withPan { Pan.reset with st := .idle, alloc := true, cold := true }
      (s.pan 0).alloc = true ∧ (s.pan 0).st = .idle ∧ (s.pan 0).hotcnt = 0 ∧ (s.pan 0).cold = true ∧ s.groupQuiet 0 = true)
    ∧ (let s := withPan { Pan.reset with st := .waking, alloc := true, cold := true }
      (s.pan 0).alloc = true ∧ (s.pan 0).init = false ∧ (s.pan 0).hotcnt = 0 ∧ (s.pan 0).cold = true ∧ s.groupQuiet 0 = true)
    ∧ (let s := withPan { Pan.reset with st := .waking }
      (s.pan 0).st = .waking ∧ (s.pan 0).ready ≤ s.hub.time)
    ∧ (let s := withPan { Pan.reset with st := .active, init := true, scrubOwed := true }
      (s.pan 0).init = true ∧ (s.pan 0).st = .active ∧ (s.pan 0).scrubOwed = true)
    ∧ (let s := { State.reset with hub := { State.reset.hub with nextScrub := 0 } }
      s.hub.nextScrub ≤ s.hub.time)
    ∧ (idle.kerns.find? (fun k => k.core == 0)).isSome = true
    ∧ (let s := { State.reset with hub := { State.reset.hub with bwq := [(0, 1)] } }
      s.hub.bwq = [(0, 1)])
    ∧ (let s := hubReady { State.reset with fills := [⟨0, 3, List.replicate 64 1⟩] }
      s.fills.length = 1 ∧ writesB s 0 ((s.context 0).logaddr.toNat + 64 * 3) (List.replicate 64 1) = true) := by
  decide +kernel

/-- A segment that the kernel's present state opened. -/
def openSeg (f : Seg → Seg) (k : Kern) : Kern :=
  { k with seg := some (f { (Inhabited.default : Seg) with byBundle := true, ck := k.checkpoint, count := 1 }) }

/-- The kernel stands before a bundle that closes its segment. -/
def closing (f : Seg → Seg) : State := atPc (idle (openSeg f)) (nopBundle ||| 1)

theorem test_hyp_SegmentsCommitAndRewind :
    (let s := closing id
     let x := s.kern 0
     x.seg.isSome = true ∧ s.closing x = true ∧ x.landed = true ∧ x.mismatch = false ∧ (x.seg.map fun g => (g.rerun, g.held)) = some (0, []))
    ∧ (let s := idle (openSeg fun g => { g with error := true })
      let x := s.kern 0
      (x.seg.map fun g => (g.rerun, g.error)) = some (0, true) ∧ s.rewindSet x = [x] ∧ x.flights = [] ∧ x.dw = [])
    ∧ (∀ n ∈ [1, 2], let s := closing fun g => { g with rerun := 2, count1 := n }
      let x := s.kern 0
      x.ctl.dead = false ∧ s.segError x = false ∧ s.atClose x = true ∧ x.landed = true
        ∧ (x.seg.map fun g => (g.rerun, g.count, g.sig == g.sig1)) = some (2, 1, true)) := by
  decide +kernel

/-- Held operations at a commit. -/
theorem test_hyp_CommitOfHeldOperations :
    ∀ l ∈ [[HeldOp.ego 4 1, .bwph 5], [.qpost 3 [1] 0]], let s := closing fun g => { g with held := l, sanitise := 2 }
      let x := s.kern 0
      s.closing x = true ∧ x.landed = true ∧ x.mismatch = false ∧ x.inRerun = false ∧ (x.seg.map (·.held)) = some l := by
  decide +kernel

/-- A rewind between the runs, of a segment that wrote bytes and let a mark go. -/
theorem test_hyp_RewindBetweenTheRuns :
    let s := closing fun g => { g with rerun := 1, undo := [⟨.ab, 64, [1, 2], none⟩], undoMarks := [(.ab, 2, some 9)] }
    let x := s.kern 0
    s.rewindSet x = [x] ∧ s.atClose x = true ∧ x.landed = true ∧ x.mismatch = false ∧ x.ab.mem.wf = true
      ∧ (x.seg.map fun g => (g.rerun, g.error)) = some (1, false)
      ∧ (x.seg.map fun g => (g.undo.filter fun w => w.covers .ab 65).getLast?) = some (some ⟨.ab, 64, [1, 2], none⟩)
      ∧ (x.seg.map fun g => (g.undoMarks.filter fun e => e.1 == .ab && e.2.1 == 2).getLast?) = some (some (.ab, 2, some 9)) := by
  decide +kernel

/-! ## Operations of the engines -/

/-- An operation of code c with this shadow set. -/
def eop (c : Nat) (sh : Tab Word) (started : Bool) : Eop :=
  ⟨1, c, false, sh, (1 :: List.range 15).flatMap (withEngines 0 standIn).capture, [], 0, 0, false, started, false⟩

/-- It waits at a port of engine e. -/
def queuedAt (e c : Nat) (sh : Tab Word) : State :=
  idle fun k => (withEngines 0 k).modPort e fun p => { p with last := 1, q := [eop c sh false] }

/-- It runs there. -/
def runningAt (e c : Nat) (sh : Tab Word) (f : Run → Run) : State :=
  idle fun k => (withEngines 0 k).modPort e fun p => { p with last := 1, q := [eop c sh true], runs := [f (.start (eop c sh true))] }

/-- An EXPAND of one bundle from t1 to bundle 5. -/
def expandSet : Tab Word := [(0, 0x00FF_0101), (2, 0x003F_0000_0000), (10, 5)]

/-- The packed NOP bundle as it has been read. -/
def readNop (r : Run) : Run :=
  { r with mem := { r.mem with cache := ((List.range 10).zip (packBundle nopBundle)).map fun e => (e.1, ⟨e.2, none⟩) } }

/-- Cursor of a run. -/
def atPhase (n : Nat) (r : Run) : Run := { r with cur := { r.cur with phase := n } }

/-- An EVAL without records over 32 rows: two groups in mode F32. -/
def evalSet : Tab Word := [(0, 0x0DFF_0C0B), (1, 0x20_0000_0000)]

theorem test_hyp_EnginesStartStepAndComplete :
    (let s := queuedAt 1 1 expandSet
     s.enginesRun (s.kern 0) = true ∧ (s.kern 0).nextOp 1 = some (eop 1 expandSet false) ∧ (eop 1 expandSet false).copy.expand = true)
    ∧ (let r := readNop (.start (eop 1 expandSet true))
      let s := runningAt 1 1 expandSet readNop
      s.copyRun 0 1 = some r ∧ s.enginesRun (s.kern 0) = true ∧ r.op.copy.expand = true ∧ r.cur.fin = none ∧ r.cur.m < r.op.copy.bundles
        ∧ r.op.srcDevice = true ∧ r.cur.acc ≤ s.hub.time ∧ r.nextBundle = .bundle nopBundle 10 ∧ nopBundle ≠ 0
        ∧ (BitVec.ofNat 11 (r.op.copy.daddr + r.cur.m)).toNat = r.op.copy.daddr + r.cur.m)
    ∧ (let s := runningAt 1 1 expandSet fun r => { r with cur := { r.cur with m := 1 } }
      let u := s.moveChunks 0 1
      u.enginesRun (u.kern 0) = true ∧ (u.copyRun 0 1).isSome = true ∧ ((u.copyRun 0 1).map fun r => u.copyOver 0 1 r) = some true
        ∧ ((u.kern 0).port 1).q = [eop 1 expandSet true])
    ∧ (let s := runningAt 4 0x18 (keySet 0xFF00_0005_0000) id
      (s.keyNext 0).map (·.kid) = some 0 ∧ (s.kern 0).nextOp 4 = none)
    ∧ (let s := runningAt 4 0x18 (keySet 0xFF00_0005_0000) (atPhase 3)
      ((s.keyRun 0).map fun r => (r.cur.phase, decide (r.cur.i ≤ r.cur.j), r.outs, r.mem.wq, s.outstanding 0 4 r.op.id.toNat)) = some (3, true, [], [], false)
        ∧ ((s.keyRun 0).map fun r => (decide (r.cur.acc ≤ s.hub.time), r.isRefused)) = some (true, false)
        ∧ (s.kern 0).key.q.length = 1)
    ∧ (let s := queuedAt 5 0x23 circSet
      s.enginesRun (s.kern 0) = true ∧ (s.kern 0).circNext = some (eop 0x23 circSet false) ∧ (s.kern 0).circP.q = [eop 0x23 circSet false])
    ∧ (let s := runningAt 5 0x21 evalSet (atPhase 2)
      s.circRuns (s.kern 0) = true ∧ (((s.circGo 0).kern 0).mainRun.map fun r => (r.cur.fin, r.op.code, decide (r.cur.acc ≤ (s.circGo 0).hub.time), r.cur.phase))
        = some (none, 0x21, true, 2))
    ∧ (let s := runningAt 5 0x21 evalSet (atPhase 5)
      s.circRuns (s.kern 0) = true ∧ ((s.kern 0).mainRun.map fun r => (r.cur.fin, r.cur.phase, r.op.hasRec, decide (r.cur.i + 1 < r.op.groups (s.kern 0).chead)))
        = some (none, 5, false, true))
    ∧ (let s := runningAt 5 0x24 circSet fun r => { r with cur := { r.cur with fin := some (0, 0) } }
      s.circRuns (s.kern 0) = true ∧ (s.kern 0).circP.runs.length = 1 ∧ s.outstanding 0 5 1 = false) :=
  by and_intros <;> decide +kernel

/-- A message of 4 bytes. -/
def message : LMsg := ⟨0, 0, 7, [1, 2, 3, 4], [none], none, false⟩

/-- A receive of kernel 0 on port 0 of die 0. -/
def recv : Recv := ⟨0, 0, 0, 1, 0, 7, 0⟩

/-- The message stands on the wire of that port. -/
def onWire (l : List Recv) (s : State) : State := { s with links := [(0, { LinkPort.reset with wire := [message] })], recvs := l }

theorem test_hyp_LinksCarryMessages :
    (∀ l ∈ [[recv], []], let s := onWire l idle
      (s.lport 0).down = false ∧ (s.lport 0).wire = [message] ∧ (s.lport (portKey 1 0)).paused = false
        ∧ (s.lport (portKey 1 0)).down = false ∧ peerPort 0 0 = some (portKey 1 0))
    ∧ (let s := onWire [recv] idle
      let u := s.modLport 0 fun p => { p with wire := [], replays := 0 }
      s.recvs.find? (fun v => v.takes 0 message && (s.kern? v.k).isSome) = some recv ∧ message.flits ≤ (u.lport 0).free)
    ∧ (let s := runningAt 6 0x31 linkSet fun r => { r with cur := { r.cur with fin := some (0, 0) } }
      s.enginesRun (s.kern 0) = true ∧ ((s.kern 0).link.runs.map fun r => (s.linkStatus 0 r).isSome) = [true] ∧ (s.kern 0).link.q = [eop 0x31 linkSet true])
    ∧ (let v := { recv with waited := State.reset.hub.linkTo * Config.cyclesPerUs }
      let s := { idle with recvs := [v] }
      s.recvs = [v] ∧ s.hub.linkTo * Config.cyclesPerUs ≤ v.waited)
    ∧ (let s := { idle with links := [(portKey 1 0, { LinkPort.reset with held := true })] }
      (s.lport (portKey 1 0)).held = true ∧ (s.lport (portKey 0 0)).held = false ∧ peerPort 1 0 = some (portKey 0 0) ∧ peerPort 0 4 = none) := by
  decide +kernel

/-! ## Sites and gangs -/

/-- A second domain, of launch 1, at the stand-in's site. -/
def twoDoms (s : State) : State :=
  { s with doms := Tab.set s.doms 4 { Dom.new 1 1 5 with started := true }, sites := [(0, ⟨[0, 4], some 0, 2 ^ 20, 0, some 4⟩)] }

/-- A launch of one kernel. -/
def oneKernel (st : LState) : Launch :=
  ⟨1, 0, 0, 0, 1, 1, false, false, false, false, false, ⟨4, 0, 0, 0, 0, 1, 0, 0⟩, 100, 0, 0, st, [0], 0, 0, [], [], []⟩

/-- Launch 0 in this state, beside the stand-in kernel, which is its kernel. -/
def launched (st : LState) (f : Kern → Kern) : State := { idle f with launches := [(0, oneKernel st)] }

/-- The stand-in's domain stands at its stop for a full pre-emption. -/
def stoppedFull : State :=
  withDom (launched .stopping fun k => { k with ctl := { k.ctl with stopped := true } }) fun d => { d with preempt := true, full := true }

theorem test_hyp_SitesDecideAndSwitch :
    bestOf [⟨0, 3, false, false, 2, 0, 5⟩, ⟨4, 3, false, true, 0, 1, 5⟩, ⟨8, 3, true, true, 9, 2, 5⟩] = some ⟨4, 3, false, true, 0, 1, 5⟩
    ∧ (let s := twoDoms idle
      (s.site? 0).map (fun t => (t.switch, t.chosen, t.running)) = some (0, some 4, some 0) ∧ (s.dom? 4).isSome = true ∧ s.drained 0 = true ∧ s.onRetired 4 = false)
    ∧ (let s := withDom idle fun d => { d with ran := 2 * d.declared + 4097 }
      s.domRuns 0 = true ∧ (s.dom? 0).map (fun x => (x.overran, decide (2 * x.declared + 4096 < x.ran))) = some (false, true))
    ∧ (let s := launched .running id
      let s := { s with hub := { s.hub with victims := [0] } }
      s.hub.victims = [0] ∧ (s.launch? 0).map (·.st) = some .running)
    ∧ (let s := { idle with hub := { State.reset.hub with preempts := [(0, 0)], hardStops := [(0, [0])], nextGrant := 0 } }
      s.hub.preempts.find? (fun e => decide (e.1 ≤ s.hub.time)) = some (0, 0) ∧ (s.dom? 0).isSome = true
        ∧ s.hub.hardStops.find? (fun e => decide (e.1 ≤ s.hub.time)) = some (0, [0]) ∧ s.anyRerun [0] = false ∧ s.hub.nextGrant ≤ s.hub.time) :=
  ⟨by decide, by decide +kernel, by decide +kernel, by decide +kernel, by decide +kernel⟩

/-- A read of the hub answers bytes. -/
def readsB (x : Except (Nat × Nat) (State × Option (List CByte))) : Bool := match x with | .ok (_, l) => l.isSome | .error _ => false

/-- Launch 0 waits; its choice is cluster 0. -/
def toPlace : State := { State.reset with launches := [(0, oneKernel .waiting)], objs := [(0, default)] }

/-- A saved launch. -/
def savedLaunch : Launch :=
  { oneKernel .saved with saved := [{ standIn with ctl := { standIn.ctl with stopped := true } }], savedDoms := [(0, Dom.new 0 0 5)], savedIs := [[]], cores := [] }

theorem test_hyp_GangsArePlacedStartAndEnd :
    (let s := toPlace
     let x := oneKernel .waiting
     s.launch? 0 = some x ∧ s.behind 0 x = false ∧ s.heldBy (.placement 0) = false ∧ (s.plans x [0]).map (fun ps => ps.all (·.fresh)) = some true
      ∧ readsB (s.hubRange 0 0 0) = true ∧ (match s.hubRanges (Tab.get default s.objs x.obj).ctx (placeReads x (Tab.get default s.objs x.obj) true) with | .ok (_, l) => l.isSome | .error _ => false) = true)
    ∧ (let s := withDom (launched .placed id) fun d => { d with started := false }
      let s := { s with hub := { s.hub with time := 256 } }
      (s.dom? 0).map (fun x => (x.started, x.launch, x.preempt)) = some (false, 0, false)
        ∧ (s.launch? 0).map (fun l => (l.st, decide (l.placedAt + 256 ≤ s.hub.time))) = some (.placed, true) ∧ s.onRetired 0 = false)
    ∧ ((stoppedFull.launch? 0).map (·.st) = some .stopping ∧ stoppedFull.savable 0 = true)
    ∧ (let s := { State.reset with launches := [(0, savedLaunch)] }
      s.launch? 0 = some savedLaunch ∧ s.behind 0 savedLaunch = false
        ∧ (s.plans savedLaunch [0]).map (fun ps => (domSizes (ps.flatMap (·.cores)), ps.length)) = some (domSizes (savedLaunch.saved.map (·.core)), 1)
        ∧ s.recvs = [])
    ∧ (let s := launched .running fun k => { k with ctl := { k.ctl with halted := true } }
      (s.launch? 0).map (·.st) = some .running ∧ (s.kerns.all fun k => k.launch != 0 || s.kernEnded k) = true ∧ s.fills = []) :=
  by and_intros <;> decide +kernel

/-! ## Queues -/

/-- A packet's 128 bytes. -/
def pkt (l : Tab Byte) : Packet := ⟨(List.range 128).map (Tab.get 0 l), none, false, none⟩

/-- Queue 1, bound to context 0 and RUNNING, with this packet; handle 1 names object 0. -/
def posted (p : Packet) (cur : List PkRun := []) : State :=
  hubReady { State.reset with queues := [(1, { Queue.reset with st := .running, ctx := 0, fifo := [p], handles := [(1, 0)], cur := cur, reread := true })] }

/-- The packet may be taken, its header without fault. -/
def takesB (s : State) (t : Nat) : Bool :=
  match s.nextPacket 1 with | some (p, _) => !p.full && ptype p.bytes == t && (headerFault p.bytes).isNone | none => false

theorem takes_of {s : State} {t : Nat} (h : takesB s t = true) : ∃ p x, Takes s 1 t p x := by
  unfold takesB at h
  split at h
  · rename_i p x e
    simp only [Bool.and_eq_true, Bool.not_eq_true', beq_iff_eq, Option.isNone_iff_eq_none] at h
    exact ⟨p, x, e, h.1.1, h.1.2, h.2⟩
  · cases h

/-- A packet in effect. -/
def inEffect (l : Tab Byte) : PkRun := ⟨(pkt l).bytes, .busy, none, false, none⟩

/-- An object of 192 bytes with one kernel, at 0x2000 of device memory. -/
def objectBytes : List Byte :=
  leBytes 4 0x4F43_5647 ++ leBytes 2 1 ++ leBytes 2 0 ++ leBytes 8 Config.devhash.toNat ++ leBytes 2 1 ++ leBytes 6 0 ++ leBytes 4 128
    ++ leBytes 100 0 ++ (leBytes 10 0 ++ leBytes 2 4 ++ leBytes 7 0 ++ leBytes 1 1 ++ leBytes 2 0 ++ leBytes 4 100 ++ leBytes 38 0)

/-- The LOAD of it. -/
def loadPkt : Packet := pkt [(0, 2), (17, 0x20), (24, 192)]

/-- The state with it. -/
def withObject : State := { posted loadPkt with mem := mapped.writeAll 0x2000 objectBytes }

/-- A LAUNCH of kernel 0 of object 0 with its default shape. -/
def launchState : State :=
  let s := posted (pkt [(0, 1), (16, 1), (22, 16)])
  { s with objs := [(0, ⟨0, 0x2000, 0, 1, objectBytes.take 128, objectBytes.drop 128⟩)]
           ctxs := [(0, { (s.context 0) with savesize := 0x40_0000 })] }

/-- What the hub reads and finds of an object. -/
def loadsB : Bool :=
  match withObject.hubRange 0 0x2000 192 with
  | .ok (u, some l) => (objectFault (l.map (·.b)) 192).isNone && decide (field (l.map (·.b)) 8 8 = Config.devhash.toNat)
      && decide (field (l.map (·.b)) 6 2 ≤ Config.devfeat.toNat % 2 ^ 16)
      && (match u.hubWriteAll 0 [] with | .ok (_, ok) => ok | .error _ => false)
  | _ => false

theorem test_hyp_QueuesTakePackets :
    (∀ t ∈ [0, 1, 2, 3, 4, 5, 6, 7, 8], takesB (posted (pkt [(0, BitVec.ofNat 8 t)])) t = true)
    ∧ (let s := posted (pkt [(0, 4), (2, 1)])
      (s.nextPacket 1).map (fun e => (e.1.full, ptype e.1.bytes, headerFault e.1.bytes)) = some (false, 4, some (0x11, 2)))
    ∧ (takesB (posted (pkt [(0, 3), (16, 1)])) 3 = true ∧ takesB (posted (pkt [(0, 3), (16, 2)])) 3 = true)
    ∧ (let s := posted (pkt []) [inEffect [(0, 6)], inEffect [(0, 4)], inEffect [(0, 8), (16, 1)]]
      s.busyPacket 1 6 = some (inEffect [(0, 6)]) ∧ s.barrierMet (inEffect [(0, 6)]).bytes = true ∧ s.busyPacket 1 4 = some (inEffect [(0, 4)])
        ∧ (s.queue 1).reread = true ∧ s.busyPan 1 1 = some 0 ∧ s.allQuiet 0 = true ∧ s.heldBy (.queue 1) = false)
    ∧ ((posted (pkt []) [inEffect [(0, 8)]]).busyPan 1 0 = some 0 ∧ (posted (pkt [])).allocated 0 = true)
    ∧ (let s := posted (pkt [(0, 4), (17, 1)])
      takesB s 4 = true ∧ (match s.hubRead 0 0x100 4 with | .ok (_, l) => l.isSome | .error _ => false) = true)
    ∧ (let s := posted (pkt [(0, 5), (17, 1), (24, 3)])
      takesB s 5 = true ∧ s.busyPacket 1 5 = none ∧ (match s.hubAccess 0 0x100 true with | .ok (_, t) => t.isSome | .error _ => false) = true)
    ∧ (let s := posted (pkt [(0, 8), (20, 2)])
      takesB s 8 = true ∧ s.busyPacket 1 8 = none ∧ s.panWrong 2 true = none ∧ (posted (pkt [])).panWrong 1 false = none ∧ phaseBad 0 = false)
    ∧ (takesB withObject 2 = true ∧ loadsB = true)
    ∧ (takesB launchState 1 = true ∧ launchFault (pkt [(0, 1), (16, 1), (22, 16)]).bytes (Tab.get default launchState.objs 0) 0x40_0000 = none)
    ∧ (let r : PkRun := { inEffect [] with phase := .done 0 0 0 }
      let s := posted (pkt []) [r]
      let c := (s.queue 1).ctx
      (s.queue 1).nextRun = some (0, r) ∧ pcmpl r.bytes = 0
        ∧ (match s.hubWrite c (s.context c).logaddr.toNat (s.context c).logHeader with | .ok (_, b) => b | .error _ => false) = true) :=
  by and_intros <;> decide +kernel

/-! ## Host messages and management -/

/-- A running package with this message at the head of the host's input. -/
def withMessage (m : Msg) (s : State) : State :=
  { s with hub := { s.hub with up := true, linksUp := true, verified := true }, hostIn := [m] }

/-- A message of a KIND: address, length, payload. -/
def msg (kind addr : Nat) (data : List Byte) : Msg := ⟨0, kind, 0x1_0000, 7, 0, addr, data.length, false, data, false, none⟩

/-- A CFGWR. -/
def cfgwr (addr v : Nat) : Msg := msg 2 addr (leBytes 8 v)

/-- `Handles`, evaluated. -/
def handlesB (i : Instr) (s : State) : Bool := s.hub.up && s.hub.linksUp && s.hub.verified && (s.dropForeign.message i).isSome

theorem handles_of {i : Instr} {s : State} (h : handlesB i s = true) : ∃ u m, Handles i s u m := by
  simp only [handlesB, Bool.and_eq_true, Option.isSome_iff_exists] at h
  obtain ⟨m, hm⟩ := h.2
  exact ⟨_, m, h.1.1.1, h.1.1.2, h.1.2, rfl, hm⟩

/-- A queue 1 in a state. -/
def queueIn (st : QState) : State := { State.reset with queues := [(1, { Queue.reset with st := st })] }

/-- A replayable fault of core 0's port, whose kernel waits with a load. -/
def faulted : State :=
  { withPort [{ item 0 .load 64 0 with tr := none }] with rfaults := [⟨0, 64, 1, .port 0, 0⟩] }

theorem leNat_leBytes : ∀ n x : Nat, leNat (leBytes n x) = x % 256 ^ n
  | 0, x => by simp [leBytes, leNat, Nat.mod_one]
  | n + 1, x => by
    simp only [leBytes, leNat, leNat_leBytes n, BitVec.toNat_ofNat, Nat.pow_succ, Nat.mul_comm (256 ^ n) 256]
    exact (Nat.mod_mul).symm

theorem value_cfgwr {a v : Nat} (h : v < 2 ^ 64) : (cfgwr a v).value = v := by
  have e : (cfgwr a v).value = leNat (leBytes 8 v) := rfl
  rw [e, leNat_leBytes]
  exact Nat.mod_eq_of_lt h

/-- FAULTCTL_RESUME or FAULTCTL_END for its requester, whatever the requester's number. -/
def faultMsg (op : Nat) : Msg := cfgwr 0x1_0020 (op + 2 ^ 32 * faulted.requesterNumber (.port 0))

theorem value_faultMsg {op : Nat} (h : op < 2 ^ 32) : (faultMsg op).value = op + 2 ^ 32 * faulted.requesterNumber (.port 0) := by
  refine value_cfgwr ?_
  have : faulted.requesterNumber (.port 0) < 2 ^ 31 := (Config.requester 0 7).isLt
  omega

theorem event_faultMsg {op : Nat} (h : op = 1 ∨ op = 2) :
    writeEvent (faultMsg op).cfgAddr (faultMsg op).value = if op = 1 then .faultctlResume else .faultctlEnd := by
  have e : (faultMsg op).value % 4 = op := by rw [value_faultMsg (by omega)]; omega
  have a : (faultMsg op).cfgAddr = 0x1_0020 := rfl
  rcases h with rfl | rfl <;> simp [writeEvent, a, e]

theorem named_faultMsg {op : Nat} (h : op < 2 ^ 32) :
    (withMessage (faultMsg op) faulted).dropForeign.namedFault (faultMsg op) = some ⟨0, 64, 1, .port 0, 0⟩ := by
  have e : (faultMsg op).value / 2 ^ 32 = faulted.requesterNumber (.port 0) := by rw [value_faultMsg h]; omega
  have a : (faultMsg op).cfgAddr = 0x1_0020 := rfl
  have r : (withMessage (faultMsg op) faulted).dropForeign.rfaults = [⟨0, 64, 1, .port 0, 0⟩] := rfl
  have q : (withMessage (faultMsg op) faulted).dropForeign.requesterNumber (.port 0) = faulted.requesterNumber (.port 0) := rfl
  rw [State.namedFault, r, a, e]
  simp [q]

theorem handles_faultMsg {op : Nat} (h : op = 1 ∨ op = 2) :
    handlesB (if op = 1 then .faultctlResume else .faultctlEnd) (withMessage (faultMsg op) faulted) = true := by
  have d : (withMessage (faultMsg op) faulted).dropForeign.hostIn = [faultMsg op] := rfl
  have k : (faultMsg op).kind = 2 := rfl
  have v : (withMessage (faultMsg op) faulted).dropForeign.hub.verified = true := rfl
  have u : (withMessage (faultMsg op) faulted).dropForeign.hub.up = true := rfl
  have l : (withMessage (faultMsg op) faulted).dropForeign.hub.linksUp = true := rfl
  have q : (faultMsg op).isRequest = true := rfl
  have n : (faultMsg op).amo = none := rfl
  have w : ((withMessage (faultMsg op) faulted).hub.up && (withMessage (faultMsg op) faulted).hub.linksUp
    && (withMessage (faultMsg op) faulted).hub.verified) = true := rfl
  simp [handlesB, w, State.message, d, u, l, q, State.msgEvent, v, k, n, event_faultMsg h]

theorem test_hyp_HostMessagesAreAnswered :
    (handlesB .cfgrd (withMessage (msg 1 0 []) .reset) = true ∧ State.reset.cfgRead 0 = .val Config.devfeat.toNat ∧ State.reset.cfgRead 4 = .bad)
    ∧ (handlesB .cfgwr (withMessage (cfgwr 0x1_0008 0x20_0000) .reset) = true
      ∧ handlesB .ctxctlWrite (withMessage (cfgwr 0x1_0000 (2 ^ 63)) .reset) = true
      ∧ (State.reset.context 0).en = false ∧ (hubReady .reset).context 0 ≠ Ctx.reset)
    ∧ ((∀ op, op = 1 ∨ op = 2 → handlesB (if op = 1 then .faultctlResume else .faultctlEnd) (withMessage (faultMsg op) faulted) = true
        ∧ (withMessage (faultMsg op) faulted).dropForeign.namedFault (faultMsg op) = some ⟨0, 64, 1, .port 0, 0⟩)
      ∧ faulted.faultWord ⟨0, 64, 1, .port 0, 0⟩ = none ∧ faulted.faultPut ⟨0, 64, 1, .port 0, 0⟩ = none
      ∧ (faulted.faultKern ⟨0, 64, 1, .port 0, 0⟩).isSome = true)
    ∧ (∀ e ∈ [(1, Instr.qctlBind, QState.unbound), (2, .qctlStart, .stopped), (3, .qctlHold, .running), (4, .qctlRelease, .held), (5, .qctlUnbind, .stopped)],
      handlesB e.2.1 (withMessage (cfgwr 0x2_0058 e.1) (queueIn e.2.2)) = true)
    ∧ (∀ v ∈ [499, 500, 2000, 2001], handlesB .pwrctlWrite (withMessage (cfgwr 0x3_0000 v) .reset) = true)
    ∧ (let s := withMessage (msg 5 1 (leBytes 128 0)) (queueIn .running)
      handlesB .qappend s = true ∧ s.dropForeign.sourceBusy 0x1_0000 = false ∧ (s.dropForeign.queue 1).st = .running
        ∧ (s.dropForeign.queue 1).spill = [] ∧ (s.dropForeign.queue 1).fill < 16)
    ∧ (∀ n ∈ [0, 4], let x : Queue := { Queue.reset with st := .running, ringcap := BitVec.ofNat _ n, spill := [⟨leBytes 128 0, none, false, some 0⟩] }
      let s := withMessage (msg 5 1 (leBytes 128 0)) { State.reset with queues := [(1, x)] }
      handlesB .qappend s = true ∧ (s.dropForeign.queue 1).spill ≠ [] ∧ decide ((s.dropForeign.queue 1).ringFill < (s.dropForeign.queue 1).ringcap.toNat) = decide (n = 4))
    ∧ (∀ st ∈ [QState.unbound, .stopped], handlesB .qappend (withMessage (msg 5 1 (leBytes 128 0)) (queueIn st)) = true)
    ∧ (∀ e ∈ [(3, Instr.memrd, false), (4, .memwr, true)],
      let m := msg e.1 64 (leBytes 8 0)
      let s := withMessage m (hubReady .reset)
      handlesB e.2.1 s = true ∧ (s.dropForeign.context m.ctx).en = true ∧ s.answerReq e.2.2 = none ∧ (s.dropForeign.hostLines m e.2.2).isSome = true)
    ∧ (let r : HReq := ⟨0, 0, 7, false, 8, 0, [], false, none, false, 0, none, false⟩
      let s := { State.reset with reqs := [(0, r), (1, { r with write := true })], hub := { State.reset.hub with panReqs := [⟨0, 7, true, 0, 0, 0⟩] } }
      (s.answerReq false).isSome = true ∧ (s.answerReq true).isSome = true ∧ s.answerPan.isSome = true)
    ∧ (let m := msg 6 0 (leBytes 24 2)
      let s := withMessage m .reset
      handlesB .fabricPanctl s = true ∧ s.answerPan = none ∧ field m.data 0 1 = 2 ∧ phaseBad (field m.data 16 8) = false ∧ m.panReserved = false)
    ∧ (handlesB .kemctWrite (withMessage (cfgwr 0x5_0008 1) .reset) = true ∧ handlesB .keyctlInstall (withMessage (cfgwr 0x5_0800 1) .reset) = true
      ∧ handlesB .keyctlErase (withMessage (cfgwr 0x5_0800 2) .reset) = true ∧ handlesB .attctlStart (withMessage (cfgwr 0x4_0020 1) .reset) = true
      ∧ State.reset.hub.attBusy = false) := by
  refine ⟨?_, ?_, ⟨fun _ h => ⟨handles_faultMsg h, named_faultMsg (by omega)⟩, ?_⟩, ?_⟩
  all_goals and_intros <;> decide +kernel

theorem test_hyp_ManagementAndBringUp :
    (∀ l ∈ [Mgmt.nodeid 5, .claim true true, .claim false false, .step 0 true, .hardStop 0 [], .set .coldIdle 3, .service 0],
      ({ State.reset with mgmtIn := [l] }).mgmtIn = [l])
    ∧ State.reset.hub.up = false
    ∧ (let s := { State.reset with hub := { State.reset.hub with up := true, attBusy := true } }
      s.hub.up = true ∧ s.hub.linksUp = false ∧ s.hub.attBusy = true)
    ∧ (let s := { State.reset with ufaults := [⟨0, 1, none, 0, 0, 0, 0, 0, 0⟩] }
      s.ufaults.length = 1 ∧ (match s.hubWrite 0 ((s.context 0).logaddr.toNat + 64 * 0x7FFF) [] with | .ok _ => false | .error _ => true) = true) := by
  decide +kernel

/-! ## The machine as a whole -/

theorem test_hyp_EncodeAndDecodeAgree :
    (Instr.mov movOk).encodable = true ∧ ((Instr.mov movOk).form.isSome && (encode (.mov movOk)).isSome) = true
    ∧ (match decodeClass .s 0x06C0_0604_F005 with | .ok _ => true | _ => false) = true := by decide +kernel

theorem reset_inv : State.reset.Inv := by unfold State.Inv; decide

/-- The next state is canonical. -/
def keepsB (s : State) : Bool := match step s with | .next t => t.mem.wf | _ => false

theorem test_hyp_StepsKeepMemoryCanonical : (atLine .store id mapped).Inv ∧ keepsB { atLine .store id mapped with script := [some (.linePerform 1)] } = true := by
  unfold State.Inv; decide +kernel

theorem test_hyp_SlotsLeaveDeviceMemory :
    (Instr.mov movOk).op? = some movOk ∧ (match exec (.mov movOk) (inSlot 1 (.mov movOk)) with | .next _ => true | _ => false) = true
    ∧ (Instr.qpost (op 0 4 6 0)).op? = some (op 0 4 6 0) ∧ (postState.queue 1).spill = [] ∧ (postState.queue 1).fill < 16
    ∧ (match exec (.qpost (op 0 4 6 0)) postState with | .next _ => true | _ => false) = true := by
  decide +kernel

/-- `FieldsPass`, evaluated. -/
def fieldsPassB (i : Instr) (s : State) : Bool :=
  i.fieldsOk s.issue.slot (hdrNlit (bundleHeader s.issue.bundle)) && s.cur.limitsOk i && !occupied s.cur s.issue.slot

theorem fieldsPass_of {i : Instr} {s : State} (h : fieldsPassB i s = true) : FieldsPass i s := by
  simpa [fieldsPassB, FieldsPass, and_assoc] using h

theorem fieldsFail_of {i : Instr} {s : State} (h : fieldsPassB i s = false) : ¬ FieldsPass i s := by
  intro hp
  obtain ⟨h1, h2, h3⟩ := hp
  simp [fieldsPassB, h1, h2, h3] at h

/-- Guarded by p1. -/
def opP (o : Op) : Op := { o with pred := 1 }

/-- One guarded operation of each class, in its slot. -/
def guardedOnes : List (Nat × Instr × Op) :=
  [(0, .nop (opP (op 0 0 0 0)), opP (op 0 0 0 0)), (1, .mov (opP movOk), opP movOk), (3, .vmov (opP opV1), opP opV1),
    (5, .mwait (opP (op 0 0 0 0)), opP (op 0 0 0 0)), (6, .ewr (opP (op 0 0x24 0 0x1C)), opP (op 0 0x24 0 0x1C))]

/-- A reserved field, a stream beyond the allotment, a V slot still occupied; a guard of a C operation that may have none; guards that
fail and guards that are tagged, in every class. -/
theorem test_hyp_FieldsAndGuards :
    (¬ FieldsPass (.mov (op 0x23 4 0 1)) (inSlot 1 (.mov (op 0x23 4 0 1))) ∧ ¬ FieldsPass (.vld (op 3 0xF 0 0)) (inSlot 3 (.vld (op 3 0xF 0 0)))
      ∧ ¬ FieldsPass (.vmov opV1) (inSlot 3 (.vmov opV1) fun k => { k with ctl := { k.ctl with occ0 := some k.cyc } }))
    ∧ (∀ i ∈ unguardedOps, (inSlot 0 (i { (default : Op) with pred := 1 })).issue.active = true)
    ∧ (∀ c ∈ guardedOnes, c.2.1.op? = some c.2.2 ∧ c.2.1.form.isSome = true ∧ (inSlot c.1 c.2.1).issue.active = true)
    ∧ (∀ c ∈ guardedOnes, FieldsPass c.2.1 (inSlot c.1 c.2.1))
    ∧ (∀ c ∈ guardedOnes, okIs (do occupy c.2.1; readPred c.2.2.pred.toNat) (inSlot c.1 c.2.1) PredReg.clear
        (match occupy c.2.1 (inSlot c.1 c.2.1) with | .ok (_, t) => t | .error _ => inSlot c.1 c.2.1) = true)
    ∧ okIs (do occupy (.mov (opP movOk)); readPred 1) (inSlot 1 (.mov (opP movOk)) (withPred 1 ⟨false, true, 3, false⟩)) ⟨false, true, 3, false⟩
        (inSlot 1 (.mov (opP movOk)) (withPred 1 ⟨false, true, 3, false⟩)) = true := by
  have h : ∀ c ∈ guardedOnes, fieldsPassB c.2.1 (inSlot c.1 c.2.1) = true := by decide +kernel
  exact ⟨⟨fieldsFail_of (by decide +kernel), fieldsFail_of (by decide +kernel), fieldsFail_of (by decide +kernel)⟩, by decide +kernel,
    by decide +kernel, fun c hc => fieldsPass_of (h c hc), by decide +kernel, by decide +kernel⟩

/-- A primary in slot j and its shadow in slot j + 1, with these faults to strike. -/
def paired (j : Nat) (i s : Instr) (l : List Soft) : State :=
  { (State.reset.place (bundleOf j ((encode i).getD 0) [] ||| bundleOf (j + 1) ((encode s).getD 0) [])).modKern 0 setRegs with soft := l }

/-- The slot that runs. -/
def atPos (s : State) (j : Nat) : State := { s with issue := { s.issue with slot := j } }

/-- An ADD and its shadow; a fault of one bit strikes the primary, one of two bits the shadow. -/
def pairedAdd : State :=
  paired 1 (.add op346) (.add { op346 with sh := true }) [.result 0 1 1, .result 0 2 6]

theorem test_hyp_ShadowForms :
    (let i := Instr.add { op346 with sh := true }
     FieldsPass i (atPos pairedAdd 2) ∧ (atPos pairedAdd 2).isShadow ∧ Reads (occupy i) (atPos pairedAdd 2) () (atPos pairedAdd 2)
      ∧ FieldsPass i (inSlot 2 i) ∧ ¬ (inSlot 2 i).isShadow)
    ∧ (let s := atPos pairedAdd 1
      Runs (.add op346) op346 s s ∧ s.hasShadow ∧ Reads (readWidth true 4) s (SVal.plain 7) s ∧ Reads (readWidth true 6) s (SVal.plain 9) s
      ∧ Strikes s 1 6 { s with soft := [] })
    ∧ (let s := { inSlot 1 (.add op346) setRegs with soft := [.result 0 1 1] }
      Runs (.add op346) op346 s s ∧ ¬ s.hasShadow ∧ Strikes s 1 1 { s with soft := [] })
    ∧ (let s := atPos (paired 3 (.viadd opV) (.viadd { opV with sh := true }) [.result 0 3 1]) 3
      Runs (.viadd opV) opV s s ∧ s.hasShadow ∧ Strikes s 1 0 { s with soft := [] })
    ∧ (let s := inSlot 1 (.mov movOk) (withRegs [(4, ⟨7, false, false, 5, false⟩)])
      Runs (.mov movOk) movOk s s ∧ s.cur.flights = [] ∧ alwaysFound (7 : Word) 5) := by
  refine ⟨⟨fieldsPass_of (by decide +kernel), by unfold State.isShadow; decide +kernel, reads_of (by decide +kernel), fieldsPass_of (by decide +kernel),
      by unfold State.isShadow; decide +kernel⟩,
    ⟨runs_of (by decide +kernel), by unfold State.hasShadow; decide +kernel, reads_of (by decide +kernel), reads_of (by decide +kernel),
      by unfold Strikes State.hasShadow; decide +kernel⟩,
    ⟨runs_of (by decide +kernel), by unfold State.hasShadow; decide +kernel, by unfold Strikes State.hasShadow; decide +kernel⟩,
    ⟨runs_of (by decide +kernel), by unfold State.hasShadow; decide +kernel, by unfold Strikes State.hasShadow; decide +kernel⟩,
    runs_of (by decide +kernel), by decide +kernel, by unfold alwaysFound; decide⟩

/-- A bundle placed for the next step. -/
def atSlot (j : Nat) (w : BitVec 48) : State := State.reset.place (bundleOf j w [])

/-- Slot `j` of the placed bundle is the next to run and holds `w`. -/
def placedAt (j : Nat) (w : BitVec 48) : Bool :=
  let s := atSlot j w
  s.issue.active && nextSlot (bundleHeader s.issue.bundle) 7 s.issue.slot == some j && bundleSlot s.issue.bundle j == w

/-- An opcode of no scalar operation, and one that only slot 1 holds. -/
theorem test_hyp_SlotsDecodeByTheirClass :
    placedAt 1 0xFFC0_0000_0000 = true ∧ (opcodes .s).contains (slotOpc 0xFFC0_0000_0000) = false
    ∧ placedAt 1 0x2000_0000_0000 = true ∧ (slotOpc 0x2000_0000_0000 == 0x080) = true := by
  refine ⟨?_, ?_, ?_, ?_⟩ <;> decide +kernel

/-- The bits of a bundle of one MOV, as the host numbers them. -/
def movBits : Nat := (bundleOf 1 ((encode (.mov movOk)).getD 0) []).toNat

theorem test_hyp_StepsRunWhatIsDecoded :
    (let s := atSlot 1 ((encode (.mov movOk)).getD 0)
     s.issue.active = true ∧ nextSlot (bundleHeader s.issue.bundle) 7 s.issue.slot = some 1
      ∧ (match decodeSlot 1 (bundleSlot s.issue.bundle 1) with | .ok i => i == .mov movOk | _ => false) = true)
    ∧ (let s := atSlot 1 0
      let s := { s with issue := { s.issue with slot := 7 } }
      nextSlot (bundleHeader s.issue.bundle) 7 s.issue.slot = none)
    ∧ (let s := idle fun k => { k with units := [(0, .waking 0)] }
      s.issue.active = false ∧ s.due = some (.bankWakeDone 0))
    ∧ decodeTableWord 512 movBits = some (.mov movOk) := by
  decide +kernel

/-! ## Clauses with conditions of their own -/

/-- An origin reservation that is to be refilled: a core's, and a die's for an enabled context. -/
theorem test_hyp_RefillOfReservations :
    (idle.kerns.find? (fun x => x.core == 0 && decide (((idle.core 0).resvOf x.ctx).length ≤ 8))).map (·.kid) = some 0
    ∧ (idle.context 0).next < 0x7FFF
    ∧ (let s := hubReady .reset
      (s.context 0).en = true ∧ (s.context 0).next < 0x7FFF ∧ (Tab.get [] s.hub.dieResv 0).length ≤ 8) := by
  decide +kernel

/-- An error in the first and in the second run. -/
theorem test_hyp_ErrorsOfRuns : ∀ n ∈ [1, 2],
    let s := closing fun g => { g with rerun := n, error := true }
    (s.kern 0).ctl.dead = false ∧ s.segError (s.kern 0) = true ∧ ((s.kern 0).seg.map (·.rerun)) = some n := by
  decide +kernel

/-- Copies of 64 bytes between t1 in device memory and t0 in AB. -/
def copyFrom (src dst : Nat) : Tab Word := [(0, BitVec.ofNat 64 (src * 2 ^ 8 + dst * 2 ^ 16)), (2, 0x003F_0000_0000)]

/-- Plain transfers that may start: out of device memory, and out of a buffer. -/
theorem test_hyp_PlainTransfersStart : ∀ e ∈ [(1, 0, true), (0, 1, false)],
    let s := queuedAt 1 1 (copyFrom e.1 e.2.1)
    let o := eop 1 (copyFrom e.1 e.2.1) false
    let o := { o with tens := (withEngines 0 standIn).capture e.1 ++ (withEngines 0 standIn).capture e.2.1 }
    let s := s.modKern 0 fun k => k.modPort 1 fun p => { p with q := [o] }
    s.enginesRun (s.kern 0) = true ∧ (s.kern 0).nextOp 1 = some o ∧ o.copy.expand = false ∧ o.srcDevice = e.2.2
      ∧ (s.kern 0).ab.ue = [] ∧ (s.kern 0).ws.ue = [] ∧ (s.kern 0).xs.ue = [] ∧ (s.kern 0).ns.ue = [] := by
  decide +kernel

/-- The circuit engine with an object loaded or not. -/
def circAt (c : Nat) (sh : Tab Word) (f : Circ → Circ) : State :=
  (queuedAt 5 c sh).modKern 0 fun k => { k with circ := f k.circ }

/-- An operation of the circuit engine that may start. -/
def startsB (c : Nat) (sh : Tab Word) (f : Circ → Circ) : Bool :=
  let s := circAt c sh f
  let x := s.kern 0
  s.enginesRun x && x.circNext == some (eop c sh false) && x.circP.runs.isEmpty && x.ab.ue.isEmpty && x.ns.ue.isEmpty && x.ns.marks.isEmpty
    && x.ab.marks.isEmpty && x.ns.mem.wf && x.ab.mem.wf

/-- A loaded object whose header is a number. -/
def loadedObj (h : BitVec 512) (c : Circ) : Circ := { c with loaded := true, header := h }

/-- PUPD of one parameter of side B from t11. -/
def pupdSet : Tab Word := [(3, 0x10B)]

theorem test_hyp_CircuitOperationsStart :
    (∀ c ∈ [0x20, 0x21, 0x22, 0x24], startsB c circSet id = true)
    ∧ (((circAt 0x21 circSet id).kern 0).circ.loaded = false)
    ∧ (let x := (circAt 0x21 evalSet (loadedObj 0)).kern 0
      startsB 0x21 evalSet (loadedObj 0) = true ∧ x.circ.loaded = true)
    ∧ (let o := eop 0x22 pupdSet false
      let x := (circAt 0x22 pupdSet (loadedObj 0)).kern 0
      startsB 0x22 pupdSet (loadedObj 0) = true ∧ x.circ.loaded = true
        ∧ (bitsOf (o.reg 3) 8 8 == 1) ≠ x.circ.act ∧ (∀ r ∈ x.circP.runs, r.op.code ≠ 0x21)) := by
  and_intros <;> decide +kernel

/-- A PUT of kernel 0 on the wire. -/
theorem test_hyp_PutsArrive :
    let m : LMsg := { message with put := true, from_ := some (0, 1) }
    let s := { runningAt 6 0x30 linkSet id with links := [(0, { LinkPort.reset with wire := [m] })] }
    (s.lport 0).down = false ∧ (s.lport 0).wire = [m] ∧ (s.lport (portKey 1 0)).paused = false ∧ m.put = true
      ∧ ((s.modLport 0 fun p => { p with wire := [] }).senderOf m).map (·.1) = some 0 := by
  decide +kernel

/-- A due stop of launches that do not rewind, behind one whose launches do. -/
theorem test_hyp_StopsBehindARewind :
    let s := idle (openSeg fun g => { g with error := true })
    let s := { s with hub := { s.hub with hardStops := [(0, [0]), (0, [1])] } }
    s.anyRerun [0] = true ∧ s.hub.hardStops.find? (fun e => decide (e.1 ≤ s.hub.time) && !s.anyRerun e.2) = some (0, [1]) := by
  decide +kernel

/-- What a placement reads of an argument block holds no mark; no kernel of the launch is there yet. -/
theorem test_hyp_PlacementFindsNoKernel :
    (∀ k ∈ toPlace.kerns, k.kid / 256 ≠ 0) ∧ (oneKernel .waiting).gs * (oneKernel .waiting).gq ≤ 256
    ∧ (match toPlace.hubRange 0 0 0 with | .ok (_, some l) => l.all (·.mark.isNone) | _ => false) = true := by
  decide +kernel

/-- A save whose area is not mapped: every piece of it is left as it is. -/
theorem test_hyp_SaveOfALaunch :
    (stoppedFull.writeSave (oneKernel .stopping)).2 = true
    ∧ ((stoppedFull.writeSave (oneKernel .stopping)).1.launch? 0).map (·.st) = some .stopping := by
  decide +kernel

/-- A PUT of another package whose page faults, and a fabric atomic. -/
theorem test_hyp_PutsAndFabricAtomics :
    (let m : Msg := { msg 4 64 [1, 2, 3, 4] with put := true }
    let s := withMessage m { hubReady .reset with mem := [] }
    handlesB .memwr s = true ∧ (s.dropForeign.context 0).en = true ∧ s.answerReq true = none ∧ s.retryPut = none ∧ s.dropForeign.hostLines m true = none
      ∧ s.dropForeign.heldPut (.remote 0 0x1_0000) = none ∧ s.dropForeign.ufaults = [] ∧ (s.dropForeign.hostFault m).isSome = true)
    ∧ (∀ n ∈ [4, 8], let m : Msg := { msg 0 64 (leBytes n 5) with amo := some 0 }
      let s := withMessage m (hubReady .reset)
      handlesB .memwr s = true ∧ s.answerReq true = none ∧ s.retryPut = none ∧ m.addr % m.len = 0
        ∧ (match s.dropForeign.translate 0 64 true with | .ok _ => true | .error _ => false) = true)
    ∧ (let m : Msg := { msg 4 64 [1, 2, 3, 4] with put := true }
      let s := { hubReady .reset with putsHeld := [m] }
      s.heldPut (.remote 0 0x1_0000) = some m ∧ s.retryPut.isSome = true) := by
  and_intros <;> decide +kernel

/-- ATTCTL while a report is signed, and with START 0. -/
theorem test_hyp_AttestationCommands :
    (let s := withMessage (cfgwr 0x4_0020 0) { State.reset with hub := { State.reset.hub with attBusy := true } }
    handlesB .attctlStart s = true ∧ s.dropForeign.hub.attBusy = true)
    ∧ handlesB .attctlStart (withMessage (cfgwr 0x4_0020 0) .reset) = true ∧ (cfgwr 0x4_0020 0).value % 2 = 0 ∧ (cfgwr 0x4_0020 1).value % 2 = 1 := by
  decide +kernel

/-- A fault whose record can be written, with a second one of its context. -/
theorem test_hyp_FaultRecordsAreWritten :
    let f : UFault := ⟨0, 1, none, 0, 0, 0, 0, 0, 0⟩
    let s := { hubReady .reset with ufaults := [f, { f with code := 5 }], ctxs := [(0, { Ctx.reset with en := true })] }
    ((s.ufaults.drop 1).filter fun g => g.ctx == f.ctx).getLastD f = { f with code := 5 }
      ∧ writesB s 0 ((s.context 0).logaddr.toNat + 64 * 0x7FFF) (s.faultRecord { f with code := 5 }) = true := by
  decide +kernel

/-- Delayed writes: one that covers a byte last, bits of a byte, a mark; and an exchange that meets an earlier write of its cycle. -/
theorem test_hyp_BytesOfDelayedWrites :
    (let w : BWrite := ⟨.ab, 64, [1, 2], none⟩
    let d : DWrite := ⟨0, .accst, [⟨.ab, 64, [7], none⟩, w, ⟨.ws, 32, [], some 9⟩], [(66, 0x0F, 0x0F)], [], [], false, 0, 0, [], 0, 0⟩
    let s := idle fun k => { k with dw := [d] }
    (s.kern 0).dueWrite = some (0, d) ∧ (s.kern 0).ab.mem.wf = true ∧ Tab.get? (s.kern 0).ab.marks 2 = none
      ∧ (64 ≤ w.addr ∧ 64 < w.addr + w.bytes.length) ∧ (∀ z ∈ d.bits, z.1 ≠ 64))
    ∧ (let e : DWrite := ⟨0, .exchange, [⟨.xs, 0, [1, 2, 3, 4], none⟩, ⟨.xs, 4, [1, 2, 3, 4], none⟩], [], [], [], false, 0, 0, [], 0, 0⟩
      let d : DWrite := ⟨0, .buffer, [⟨.xs, 4, [5, 6, 7, 8], none⟩], [], [], [], false, 0, 0, [], 0, 0⟩
      let s := idle fun k => { k with dw := [e, d] }
      let t := s.delayed 0 fun x => x == .buffer
      (s.kern 0).dueWrite = some (1, d) ∧ (t.kern 0).dw.length = 1 ∧ (((t.kern 0).dueWrite).map fun f => f.1 == 0 && f.2.kind == .exchange && f.2.due == 0 && f.2.bits.isEmpty) = some true
        ∧ (t.kern 0).xs.ue = [] ∧ (t.kern 0).xs.mem.wf = true ∧ Tab.get? (t.kern 0).xs.marks 0 = none) := by
  and_intros <;> decide +kernel

/-- Memory in canonical form where an atomic is performed; a walk for an engine. -/
theorem test_hyp_AtomicsAndEngineWalks :
    (atLine (.amo 0)).mem.wf = true
    ∧ (∀ m ∈ [mapped, []],
      let s := { copyRun with tlb := [], emiss := [⟨0, 1, 0, 0, false, 0⟩], mem := m, ctxs := [(0, { Ctx.reset with en := true })] }
      ((s.walks.drop 0).head?).map (fun r => (r.engine, r.va)) = some (some 1, 0)
        ∧ (s.walk 0 0 false).toOption.isSome = decide (m ≠ [])) := by
  decide +kernel

/-- BWPH in a segment with room. -/
theorem test_hyp_BwphInASegment :
    let i := Instr.bwph (op 0 0x24 0 0)
    let s := inEV i 5 0 (withSegment (Inhabited.default (α := Seg)))
    HypA i (op 0 0x24 0 0) s (SVal.plain 5) ∧ s.cur.seg.isSome = true ∧ ((s.cur.seg.map fun g => decide (g.heldStores + g.held.length < 16)) = some true) := by
  exact ⟨hypA_of (by decide +kernel), by decide +kernel, by decide +kernel⟩

/-! ## Requests that wait at the pans of their tables, held words, records with a reserved bit alone -/

/-- The group of the tables ready, or still to be zeroed. -/
def tablesAt (init : Bool) (s : State) : State := { s with pans := [(0, { Pan.reset with st := .active, alloc := true, init := init })] }

theorem test_hyp_TablesAreReached :
    (∀ m ∈ [mapped, []],
      let s := { copyRun with tlb := [], emiss := [⟨0, 1, 0, 0, false, 0⟩], mem := m, ctxs := [(0, { Ctx.reset with en := true })] }
      ((tablesAt false s).reachTables 0 0).2 = true ∧ ((tablesAt true s).reachTables 0 0).2 = false
        ∧ ((tablesAt false (untranslated m)).reachTables 0 64).2 = true ∧ ((tablesAt true (untranslated m)).reachTables 0 64).2 = false)
    ∧ (∀ e ∈ [(3, Instr.memrd, false), (4, .memwr, false), (4, .memwr, true)],
      let m := { msg e.1 64 (leBytes 8 0) with put := e.2.2 }
      let s := withMessage m (hubReady .reset)
      (s.dropForeign.reachMsg m).2 = true ∧ ((tablesAt true s).dropForeign.reachMsg m).2 = false)
    ∧ (let m := { msg 4 64 (leBytes 8 0) with put := true }
      let s := withMessage m { hubReady .reset with putsHeld := [m] }
      (s.dropForeign.heldPut (.remote m.via m.src)).isSome = true) := by
  and_intros <;> decide +kernel

/-- A completion word whose write faulted is held by its packet. -/
theorem test_hyp_HeldCompletionWords :
    let r : PkRun := { inEffect [] with phase := .done 0 0 0 }
    let s := { State.reset with queues := [(1, { Queue.reset with st := .running, cur := [r], heldAt := some 0 })] }
    s.faultWord ⟨0, 64, 1, .queue 1, 1⟩ = some (1, 0, r) ∧ s.faultWord ⟨0, 64, 1, .queue 1, 0⟩ = none := by
  decide +kernel

/-- A record whose one fault is a reserved bit: its tensor may be used. -/
theorem test_hyp_RecordsWithAReservedBit :
    let o := op 0 4 0 2
    let s := inEV (.spat o) 0 (patRec + BitVec.ofNat 512 (2 ^ 24))
    s.cur.recordBad (patRec + BitVec.ofNat 512 (2 ^ 24)) = true ∧ s.cur.recordVals (patRec + BitVec.ofNat 512 (2 ^ 24)) = []
      ∧ s.cur.recordVals (-1) ≠ [] := by
  decide +kernel

end Sys2Proof.Tests
end

namespace Sys2Proof.Machine

/-! ## Tables, domains and launches that read back what was set -/

section
variable {α : Type}

/-- A key set is listed with what it was set to. -/
@[simp] theorem Tab.get?_set_self (t : Tab α) (i : Nat) (v : α) : Tab.get? (Tab.set t i v) i = some v := by
  induction t with
  | nil => simp [Tab.set, Tab.get?]
  | cons e t ih =>
    obtain ⟨k, x⟩ := e
    simp only [Tab.set]
    split
    · simp [Tab.get?]
    · split
      · simp [Tab.get?]
      · next h => simp [Tab.get?, h, ih]

/-- Setting a key leaves the entry of every other key alone. -/
theorem Tab.get?_set_ne (t : Tab α) (i j : Nat) (v : α) (h : j ≠ i) : Tab.get? (Tab.set t i v) j = Tab.get? t j := by
  induction t with
  | nil => simp [Tab.set, Tab.get?, h]
  | cons e t ih =>
    obtain ⟨k, x⟩ := e
    simp only [Tab.set]
    split
    · simp [Tab.get?, h]
    · split
      · next hik => subst hik; simp [Tab.get?, h]
      · simp [Tab.get?, ih]

end

/-- A domain after its change. -/
theorem State.dom?_modDom_self (s : State) (d : Nat) (f : Dom → Dom) : (s.modDom d f).dom? d = (s.dom? d).map f := by
  unfold State.modDom
  cases h : s.dom? d with
  | none => simp [h]
  | some x => simp [State.dom?]

/-- Another domain after a change. -/
theorem State.dom?_modDom_ne (s : State) (d j : Nat) (f : Dom → Dom) (h : j ≠ d) : (s.modDom d f).dom? j = s.dom? j := by
  unfold State.modDom
  split
  · exact Tab.get?_set_ne s.doms d j _ h
  · rfl

/-- A launch after its change. -/
theorem State.launch?_modLaunch_self (s : State) (l : Nat) (f : Launch → Launch) :
    (s.modLaunch l f).launch? l = (s.launch? l).map f := by
  unfold State.modLaunch
  cases h : s.launch? l with
  | none => simp [h]
  | some x => simp [State.launch?]

/-- A part of a state that each step of a fold keeps is kept by the fold. -/
theorem foldl_keeps {σ α β : Type} (g : σ → β) (f : σ → α → σ) (h : ∀ s a, g (f s a) = g s) (l : List α) (s : σ) :
    g (l.foldl f s) = g s := by
  induction l generalizing s with
  | nil => rfl
  | cons a l ih => rw [List.foldl_cons, ih, h]

/-! ## What origins and buffer writes of a kernel leave alone -/

/-- Device memory, the domains, the launches, and which kernels stand on which cores. -/
def State.roster (s : State) : Memory × Tab Dom × Tab Launch × List (Nat × Nat) :=
  (s.mem, s.doms, s.launches, s.kerns.map fun k => (k.kid, k.core))

theorem State.roster_eq_iff (s t : State) : s.roster = t.roster ↔ s.mem = t.mem ∧ s.doms = t.doms ∧ s.launches = t.launches
    ∧ s.kerns.map (fun k => (k.kid, k.core)) = t.kerns.map (fun k => (k.kid, k.core)) := by
  simp [State.roster]

/-- A change that keeps a kernel's identity and core keeps the roster. -/
theorem State.roster_modKern (s : State) (k : Nat) (f : Kern → Kern) (h : ∀ x, (f x).kid = x.kid ∧ (f x).core = x.core) :
    (s.modKern k f).roster = s.roster := by
  have hm : (s.modKern k f).kerns.map (fun x => (x.kid, x.core)) = s.kerns.map fun x => (x.kid, x.core) := by
    simp only [State.modKern, List.map_map]
    refine List.map_congr_left fun x _ => ?_
    by_cases hx : x.kid = k <;> simp [hx, h]
  simp [State.roster_eq_iff, hm]

theorem State.roster_commitMade (s : State) (k : Nat) (info : OInfo) (m : Made) : (s.commitMade k info m).roster = s.roster := by
  unfold State.commitMade
  split <;> rfl

theorem Kern.obtained_kid_core (k : Kern) (m : Made) : (k.obtained m).kid = k.kid ∧ (k.obtained m).core = k.core :=
  ⟨rfl, rfl⟩

theorem State.roster_commitSlotMade (s : State) (info : OInfo) (m : Made) : (s.commitSlotMade info m).roster = s.roster := by
  unfold State.commitSlotMade
  split
  · exact State.roster_commitMade _ _ _ _
  · rw [State.roster_modKern _ _ _ fun x => x.obtained_kid_core m]
    split
    · exact State.roster_commitMade _ _ _ _
    · rfl

theorem State.roster_kernOrigin (s : State) (k kind : Nat) (info : OInfo) : (s.kernOrigin k kind info).2.roster = s.roster :=
  foldl_keeps State.roster _ (fun t m => t.roster_commitMade k info m) _ s

theorem State.roster_slotOrigin (s : State) (kind : Nat) (info : OInfo) : (s.slotOrigin kind info).2.roster = s.roster := by
  unfold State.slotOrigin State.commitArith
  exact (foldl_keeps State.roster _ (fun t m => t.roster_commitSlotMade info m) _ _).trans
    (State.roster_modKern _ _ _ fun _ => ⟨rfl, rfl⟩)

/-- An index for a kernel that is no engine's (source 7 of R365). -/
theorem State.roster_takeOrigin_kern (s : State) (k loc insn kind addr : Nat) :
    (s.takeOrigin (.kern k 7 loc insn) kind addr).2.roster = s.roster := by
  simp only [State.takeOrigin, Nat.lt_irrefl, if_false]
  split
  · exact State.roster_slotOrigin _ _ _
  · exact State.roster_kernOrigin _ _ _ _

@[simp] theorem Kern.setBuf_kid (k : Kern) (b : BufId) (x : Buf) : (k.setBuf b x).kid = k.kid := by cases b <;> rfl
@[simp] theorem Kern.setBuf_core (k : Kern) (b : BufId) (x : Buf) : (k.setBuf b x).core = k.core := by cases b <;> rfl

@[simp] theorem State.roster_setHub (s : State) (h : Hub) : ({ s with hub := h } : State).roster = s.roster := rfl

theorem State.roster_correctBuf (s : State) (k : Nat) (b : BufId) (l : List (Nat × Nat)) : (s.correctBuf k b l).roster = s.roster := by
  unfold State.correctBuf
  dsimp only
  split
  · rfl
  · exact (State.roster_setHub _ _).trans (State.roster_modKern _ _ _ fun x => ⟨x.setBuf_kid b _, x.setBuf_core b _⟩)

theorem State.roster_consumeRanges (s : State) (k j loc insn : Nat) (b : BufId) (l : List (Nat × Nat)) :
    (s.consumeRanges k (.kern j 7 loc insn) b l).roster = s.roster := by
  unfold State.consumeRanges
  dsimp only
  split
  · exact s.roster_correctBuf k b l
  · split
    · exact s.roster_correctBuf k b l
    · rw [State.roster_modKern _ _ _ fun x => ⟨x.setBuf_kid b _, x.setBuf_core b _⟩, State.roster_takeOrigin_kern,
        State.roster_correctBuf]

theorem State.roster_consumePartial (s : State) (k j loc insn : Nat) (b : BufId) (runs : List (Nat × List Byte)) (part : List Nat) :
    (s.consumePartial k (.kern j 7 loc insn) b runs part).roster = s.roster := by
  unfold State.consumePartial
  dsimp only
  split
  · rfl
  · split
    · rfl
    · exact State.roster_consumeRanges _ _ _ _ _ _ _

/-- Writes to a kernel's buffers keep the roster. -/
theorem State.roster_writeBufs (s : State) (k j loc insn : Nat) (ws : List BWrite) :
    (s.writeBufs k (.kern j 7 loc insn) ws).roster = s.roster := by
  unfold State.writeBufs
  refine foldl_keeps State.roster _ (fun t b => ?_) _ s
  simp only [ite_self]
  split
  · rfl
  · rw [State.roster_modKern _ _ _ fun x => ⟨x.setBuf_kid b _, x.setBuf_core b _⟩, State.roster_consumePartial]


/-! ## The cores of a gang, by die (01 R13) -/

/-- In a list that a measure orders, what lies below a bound comes before what lies at it. -/
theorem filter_lt_succ_eq_append (f : Nat → Nat) (l : List Nat) (h : l.Pairwise fun a b => f a ≤ f b) (k : Nat) :
    l.filter (fun x => decide (f x < k + 1)) = l.filter (fun x => decide (f x < k)) ++ l.filter fun x => f x == k := by
  induction l with
  | nil => rfl
  | cons a l ih =>
    obtain ⟨ha, hl⟩ := List.pairwise_cons.mp h
    have ih := ih hl
    rcases Nat.lt_trichotomy (f a) k with hk | hk | hk
    · have h1 : f a < k + 1 := by omega
      have h2 : f a ≠ k := by omega
      rw [List.filter_cons_of_pos (by simpa only [decide_eq_true_eq] using h1),
        List.filter_cons_of_pos (by simpa only [decide_eq_true_eq] using hk),
        List.filter_cons_of_neg (by simpa only [beq_iff_eq] using h2), ih, List.cons_append]
    · have none_below : l.filter (fun x => decide (f x < k)) = [] := by
        simp only [List.filter_eq_nil_iff, decide_eq_true_eq]
        intro x hx; have := ha x hx; omega
      have h1 : f a < k + 1 := by omega
      have h2 : ¬ f a < k := by omega
      rw [List.filter_cons_of_pos (by simpa only [decide_eq_true_eq] using h1),
        List.filter_cons_of_neg (by simpa only [decide_eq_true_eq] using h2),
        List.filter_cons_of_pos (by simpa only [beq_iff_eq] using hk), ih, none_below, List.nil_append, List.nil_append]
    · have none_at : l.filter (fun x => f x == k) = [] := by
        simp only [List.filter_eq_nil_iff, beq_iff_eq]
        intro x hx; have := ha x hx; omega
      have h1 : ¬ f a < k + 1 := by omega
      have h2 : ¬ f a < k := by omega
      have h3 : f a ≠ k := by omega
      rw [List.filter_cons_of_neg (by simpa only [decide_eq_true_eq] using h1),
        List.filter_cons_of_neg (by simpa only [decide_eq_true_eq] using h2),
        List.filter_cons_of_neg (by simpa only [beq_iff_eq] using h3), ih, none_at]

/-- Such a list is its parts of one measure each, one after the other. -/
theorem flatten_filter_eq (f : Nat → Nat) (l : List Nat) (h : l.Pairwise fun a b => f a ≤ f b) (k : Nat) :
    ((List.range k).map fun d => l.filter fun x => f x == d).flatten = l.filter fun x => decide (f x < k) := by
  induction k with
  | zero => exact (List.filter_eq_nil_iff.mpr fun x _ => by simp).symm
  | succ k ih =>
    rw [List.range_succ, List.map_append, List.flatten_append, ih, filter_lt_succ_eq_append f l h k]
    simp only [List.map_cons, List.map_nil, List.flatten_cons, List.flatten_nil, List.append_nil]

/-- The domains' cores, one domain after the other, are the gang's. -/
theorem flatten_byDie (l : List Nat) (h : l.Pairwise (· ≤ ·)) (hb : ∀ c ∈ l, c < 256) : (byDie l).flatten = l := by
  have hd : l.Pairwise fun a b => a / 64 ≤ b / 64 := h.imp fun hab => Nat.div_le_div_right hab
  have hall : ∀ c ∈ l, decide (c / 64 < 4) = true := fun c hc => by have := hb c hc; simp; omega
  rw [byDie, List.flatten_filter_not_isEmpty, flatten_filter_eq (· / 64) l hd, List.filter_eq_self.mpr hall]

/-- Strictly rising neighbours rise all along. -/
theorem pairwise_lt_of_rising : ∀ l : List Nat, rising l = true → l.Pairwise (· < ·)
  | [], _ => .nil
  | [_], _ => by simp
  | a :: b :: t, h => by
    simp only [rising, Bool.and_eq_true, decide_eq_true_eq] at h
    have hbt := pairwise_lt_of_rising (b :: t) h.2
    refine List.pairwise_cons.mpr ⟨fun c hc => ?_, hbt⟩
    rcases List.mem_cons.mp hc with rfl | hc
    · exact h.1
    · exact Nat.lt_trans h.1 (List.rel_of_pairwise_cons hbt hc)

/-- The cluster of a gang's n-th kernel is one of the chosen. -/
theorem cluster_index_lt {n k i : Nat} (hk : k = ceilDiv n 8) (hi : i < n) : i / 8 < k := by
  simp only [ceilDiv] at hk
  omega

section
variable {cl : List Nat} {n : Nat} (hlen : cl.length = ceilDiv n 8)
include hlen

/-- On clusters in rising order the cores of a gang rise. -/
theorem pairwise_le_gangCores (hr : rising cl = true) : (gangCores cl n).Pairwise (· ≤ ·) := by
  have hcl := List.pairwise_iff_getElem.mp (pairwise_lt_of_rising cl hr)
  refine List.pairwise_map.mpr (List.pairwise_lt_range.imp_of_mem fun {i j} _ hj hij => ?_)
  have hjk := cluster_index_lt hlen (List.mem_range.mp hj)
  have hik : i / 8 < cl.length := Nat.lt_of_le_of_lt (Nat.div_le_div_right (Nat.le_of_lt hij)) hjk
  rw [List.getD_eq_getElem?_getD, List.getD_eq_getElem?_getD, List.getElem?_eq_getElem hik,
    List.getElem?_eq_getElem hjk, Option.getD_some, Option.getD_some]
  rcases Nat.eq_or_lt_of_le (Nat.div_le_div_right (c := 8) (Nat.le_of_lt hij)) with heq | hlt
  · simp only [heq]; omega
  · have := hcl (i / 8) (j / 8) hik hjk hlt
    omega

/-- They are cores of the package. -/
theorem lt_of_mem_gangCores (hb : ∀ c ∈ cl, c < 32) : ∀ c ∈ gangCores cl n, c < 256 := by
  intro c hc
  obtain ⟨i, hi, rfl⟩ := List.mem_map.mp hc
  have hik := cluster_index_lt hlen (List.mem_range.mp hi)
  rw [List.getD_eq_getElem?_getD, List.getElem?_eq_getElem hik, Option.getD_some]
  have := hb _ (List.getElem_mem hik)
  omega

end

/-- A plan is for the cores it was asked for. -/
theorem State.cores_of_plan {s : State} {x : Launch} {cores n : List Nat} {p : Plan} (h : s.plan x cores n = some p) :
    p.cores = cores := by
  unfold State.plan at h
  dsimp only at h
  split at h
  · cases h
  · split at h <;>
      obtain ⟨_, h⟩ := Option.ite_none_right_eq_some.mp h <;>
      exact congrArg Plan.cores (Option.some.inj h).symm

theorem State.cores_of_plansFor {s : State} {x : Launch} {cs : List (List Nat)} {n : List Nat} {ps : List Plan}
    (h : s.plansFor x cs n = some ps) : ps.map (·.cores) = cs := by
  induction cs generalizing n ps with
  | nil => cases h; rfl
  | cons c cs ih =>
    simp only [State.plansFor] at h
    split at h
    · next hp hps => cases h; rw [List.map_cons, ih hps, s.cores_of_plan hp]
    · cases h

/-- What a choice that places a launch fulfils: as many clusters as the gang takes, in rising order, each of the package. -/
theorem State.plans_some {s : State} {x : Launch} {ch : List Nat} {ps : List Plan} (h : s.plans x ch = some ps) :
    let cl := ch.take (ceilDiv (x.gs * x.gq) 8)
    cl.length = ceilDiv (x.gs * x.gq) 8 ∧ rising cl = true ∧ (∀ c ∈ cl, c < 32)
      ∧ ps.map (·.cores) = byDie (gangCores cl (x.gs * x.gq)) := by
  intro cl
  unfold State.plans at h
  dsimp only at h
  split at h
  · cases h
  · next hcl =>
    obtain ⟨hlen, hr, hin⟩ : cl.length = _ ∧ rising cl = true ∧ _ := by
      simpa only [not_or, ne_eq, Decidable.not_not, Bool.not_eq_false, Bool.not_eq_true] using hcl
    have hb : ∀ c ∈ cl, c < 32 := fun c hc => by
      have := List.any_eq_false.mp hin c hc
      simp only [Bool.or_eq_true, decide_eq_true_eq, not_or, Nat.not_le] at this
      exact this.1
    split at h
    · next hps =>
      split at h
      · cases h; exact ⟨hlen, hr, hb, s.cores_of_plansFor hps⟩
      · cases h
    · cases h

/-- Kernel n of a gang goes to core n mod 8 of the (n div 8)-th chosen cluster (01 R13). -/
theorem State.cores_of_plans {s : State} {x : Launch} {ch : List Nat} {ps : List Plan} (h : s.plans x ch = some ps) :
    ps.flatMap (·.cores) = (List.range (x.gs * x.gq)).map fun n =>
      8 * (ch.take (ceilDiv (x.gs * x.gq) 8)).getD (n / 8) 0 + n % 8 := by
  obtain ⟨hlen, hr, hb, hcores⟩ := s.plans_some h
  rw [List.flatMap_def, hcores, flatten_byDie _ (pairwise_le_gangCores hlen hr) (lt_of_mem_gangCores hlen hb)]
  simp only [gangCores, Nat.mul_comm]


/-! ## Writes of a list of bytes into a buffer without marks -/

/-- Dropping repeats drops no element. -/
theorem mem_dedup (l : List Nat) : ∀ x, x ∈ dedup l ↔ x ∈ l := by
  induction l with
  | nil => exact fun _ => Iff.rfl
  | cons a l ih =>
    intro x
    simp only [dedup]
    split
    · next h =>
      have ha : a ∈ l := (ih a).mp (List.contains_iff_mem.mp h)
      rw [ih, List.mem_cons]
      exact ⟨.inr, fun h => h.elim (· ▸ ha) id⟩
    · simp [ih]

/-- What byte a holds after writes of single bytes in order, of which the last to it decides. -/
def byteAfter (ps : List (Nat × Byte)) (a : Nat) (b : Byte) : Byte := ps.foldl (fun b p => if p.1 = a then p.2 else b) b

theorem byteAfter_cons (p : Nat × Byte) (ps : List (Nat × Byte)) (a : Nat) (b : Byte) :
    byteAfter (p :: ps) a b = byteAfter ps a (if p.1 = a then p.2 else b) := rfl

theorem byteAfter_append (ps qs : List (Nat × Byte)) (a : Nat) (b : Byte) :
    byteAfter (ps ++ qs) a b = byteAfter qs a (byteAfter ps a b) := List.foldl_append

/-- Writes that do not reach a byte leave it. -/
theorem byteAfter_of_not_mem (ps : List (Nat × Byte)) (a : Nat) (b : Byte) (h : ∀ p ∈ ps, p.1 ≠ a) : byteAfter ps a b = b := by
  induction ps generalizing b with
  | nil => rfl
  | cons p ps ih =>
    rw [byteAfter_cons, if_neg (h p (by simp)), ih b fun q hq => h q (by simp [hq])]

/-- Writes repeated change nothing more. -/
theorem byteAfter_byteAfter (ps : List (Nat × Byte)) (a : Nat) (b : Byte) : byteAfter ps a (byteAfter ps a b) = byteAfter ps a b := by
  suffices h : byteAfter ps a = id ∨ ∃ c, byteAfter ps a = fun _ => c by
    rcases h with h | ⟨c, h⟩ <;> simp [h]
  induction ps with
  | nil => exact .inl rfl
  | cons p ps ih =>
    rcases ih with h | ⟨c, h⟩
    · by_cases hp : p.1 = a
      · exact .inr ⟨p.2, funext fun b => by simp [byteAfter_cons, h, hp]⟩
      · exact .inl (funext fun b => by simp [byteAfter_cons, h, hp])
    · exact .inr ⟨c, funext fun b => by simp [byteAfter_cons, h]⟩

/-- The writes to one sector are those that decide the bytes of that sector. -/
theorem byteAfter_filter_sector (ps : List (Nat × Byte)) (sec a : Nat) (b : Byte) :
    byteAfter (ps.filter fun p => p.1 / 32 == sec) a b = if a / 32 = sec then byteAfter ps a b else b := by
  induction ps generalizing b with
  | nil => simp [byteAfter]
  | cons p ps ih =>
    by_cases hp : p.1 / 32 = sec
    · simp only [List.filter_cons, hp, beq_self_eq_true, if_true, byteAfter_cons, ih]
      by_cases ha : a / 32 = sec
      · simp [ha]
      · have : p.1 ≠ a := fun h => ha (h ▸ hp)
        simp [ha, this]
    · simp only [List.filter_cons, beq_iff_eq, hp, if_false, byteAfter_cons, ih]
      by_cases ha : a / 32 = sec
      · have : p.1 ≠ a := fun h => hp (h ▸ ha)
        simp [ha, this]
      · simp [ha]

/-- Single bytes written into memory in canonical form: it stays canonical, and each byte is what its writes make of it. -/
theorem Memory.foldl_write (m : Memory) (ps : List (Nat × Byte)) (h : m.wf = true) :
    (ps.foldl (fun m p => m.write p.1 p.2) m).wf = true
      ∧ ∀ a, (ps.foldl (fun m p => m.write p.1 p.2) m).byte a = byteAfter ps a (m.byte a) := by
  induction ps generalizing m with
  | nil => exact ⟨h, fun _ => rfl⟩
  | cons p ps ih =>
    obtain ⟨hw, hb⟩ := ih (m.write p.1 p.2) (m.wf_write p.1 p.2 h)
    refine ⟨hw, fun a => (hb a).trans ?_⟩
    by_cases hp : p.1 = a
    · subst hp; rw [m.byte_write_self _ _ h, byteAfter_cons, if_pos rfl]
    · rw [m.byte_write_ne _ _ _ (Ne.symm hp), byteAfter_cons, if_neg hp]

/-- One sector of the writes that take effect together (`Buf.write`). -/
def Buf.writeSector (ps : List (Nat × Byte)) (x : Buf) (sec : Nat) : Buf :=
  let mine := ps.filter fun p => p.1 / 32 == sec
  let has := fun a => mine.any fun p => p.1 == a
  let put := fun (m : Memory) => mine.foldl (fun m p => m.write p.1 p.2) m
  let upset := x.upset.filter fun g => g != sec / 64
  if (List.range 32).all fun i => has (32 * sec + i) then
    ⟨put x.mem, x.marks.erase sec, x.ue.filter fun w => w / 4 != sec, x.ce.filter fun w => w / 4 != sec, upset⟩
  else
    let stays := fun w => !(w / 4 == sec && (List.range 8).all fun i => has (8 * w + i))
    ⟨if (Tab.get? x.marks sec).isSome then x.mem else put x.mem, x.marks, x.ue.filter stays, x.ce.filter stays, upset⟩

theorem Buf.write_eq_foldl (x : Buf) (runs : List (Nat × List Byte)) :
    x.write runs = (dedup ((pairsOf runs).map fun p => p.1 / 32)).foldl (Buf.writeSector (pairsOf runs)) x := rfl

/-- Without marks a sector's bytes are written, whether all of them are or some. -/
theorem Buf.writeSector_unmarked (ps : List (Nat × Byte)) (x : Buf) (sec : Nat) (h : x.marks = []) :
    (x.writeSector ps sec).marks = []
      ∧ (x.writeSector ps sec).mem = (ps.filter fun p => p.1 / 32 == sec).foldl (fun m p => m.write p.1 p.2) x.mem := by
  unfold Buf.writeSector
  dsimp only
  split
  · exact ⟨by rw [h]; rfl, rfl⟩
  · exact ⟨h, by rw [h]; rfl⟩

/-- The bytes of a buffer without marks after the writes to some sectors. -/
theorem Buf.foldl_writeSector_unmarked (ps : List (Nat × Byte)) (secs : List Nat) (x : Buf) (h : x.marks = [])
    (hw : x.mem.wf = true) :
    (secs.foldl (Buf.writeSector ps) x).marks = []
      ∧ ∀ a, (secs.foldl (Buf.writeSector ps) x).mem.byte a = if a / 32 ∈ secs then byteAfter ps a (x.mem.byte a) else x.mem.byte a := by
  induction secs generalizing x with
  | nil => exact ⟨h, fun a => by simp⟩
  | cons sec secs ih =>
    obtain ⟨hm, hmem⟩ := x.writeSector_unmarked ps sec h
    obtain ⟨hwf, hbytes⟩ := x.mem.foldl_write (ps.filter fun p => p.1 / 32 == sec) hw
    obtain ⟨hm', hb'⟩ := ih (x.writeSector ps sec) hm (by rw [hmem, hwf])
    refine ⟨hm', fun a => ?_⟩
    rw [List.foldl_cons, hb', hmem, hbytes, byteAfter_filter_sector]
    by_cases ha : a / 32 = sec
    · simp [ha, byteAfter_byteAfter]
    · simp [ha]

/-- Writes into a buffer without marks write every byte. -/
theorem Buf.write_unmarked (x : Buf) (runs : List (Nat × List Byte)) (h : x.marks = []) (hw : x.mem.wf = true) :
    (x.write runs).marks = [] ∧ ∀ a, (x.write runs).mem.byte a = byteAfter (pairsOf runs) a (x.mem.byte a) := by
  rw [Buf.write_eq_foldl]
  obtain ⟨hm, hb⟩ := Buf.foldl_writeSector_unmarked (pairsOf runs) (dedup ((pairsOf runs).map fun p => p.1 / 32)) x h hw
  refine ⟨hm, fun a => (hb a).trans ?_⟩
  split
  · rfl
  · next ha =>
    refine (byteAfter_of_not_mem _ _ _ fun p hp hpa => ha ?_).symm
    exact (mem_dedup _ _).mpr (List.mem_map.mpr ⟨p, hp, by rw [hpa]⟩)

/-! ## Bytes from an address on, cut into sectors -/

/-- The runs of a range of bytes that begins at address 0, cut into pieces. -/
def runsOf (bs : List Byte) (ps : List (Nat × Nat × Nat)) : List (Nat × List Byte) := ps.map fun p => (p.2.1, (bs.drop p.1).take p.2.2)

/-- One run from an address on. -/
theorem byteAfter_run (addr : Nat) (bs : List Byte) (a : Nat) (b : Byte) :
    byteAfter (((List.range bs.length).zip bs).map fun p => (addr + p.1, p.2)) a b
      = if addr ≤ a then bs.getD (a - addr) b else b := by
  rw [← List.reverse_reverse bs]
  induction bs.reverse with
  | nil => simp [byteAfter]
  | cons c rs ih =>
    rw [List.reverse_cons]
    generalize rs.reverse = bs at ih ⊢
    have hz : (List.range (bs ++ [c]).length).zip (bs ++ [c]) = (List.range bs.length).zip bs ++ [(bs.length, c)] := by
      rw [List.length_append, List.length_singleton, List.range_succ, List.zip_append (by simp)]; rfl
    rw [hz, List.map_append, byteAfter_append, ih]
    simp only [List.map_cons, List.map_nil, byteAfter, List.foldl_cons, List.foldl_nil]
    by_cases ha : addr ≤ a
    · rcases Nat.lt_trichotomy (a - addr) bs.length with h | h | h
      · have : addr + bs.length ≠ a := by omega
        simp [ha, this, List.getD_eq_getElem?_getD, List.getElem?_append_left h]
      · have : addr + bs.length = a := by omega
        simp [ha, this, h, List.getD_eq_getElem?_getD]
      · have : addr + bs.length ≠ a := by omega
        have h' : bs.length + 1 ≤ a - addr := h
        rw [if_neg this, if_pos ha, if_pos ha, List.getD_eq_getElem?_getD, List.getD_eq_getElem?_getD,
          List.getElem?_eq_none (Nat.le_of_lt h), List.getElem?_eq_none (by simpa only [List.length_append, List.length_singleton] using h')]
    · have : addr + bs.length ≠ a := by omega
      simp [ha, this]

theorem byteAfter_pairsOf_cons (r : Nat × List Byte) (runs : List (Nat × List Byte)) (a : Nat) (b : Byte) :
    byteAfter (pairsOf (r :: runs)) a b = byteAfter (pairsOf runs) a (if r.1 ≤ a then r.2.getD (a - r.1) b else b) := by
  rw [← byteAfter_run, ← byteAfter_append]
  rfl

/-- The pieces from an address to the end of a list of bytes, with units enough, give every byte from there on. -/
theorem byteAfter_runsOf_cutPieces (bs : List Byte) (fuel off n a : Nat) (b : Byte) (hn : off + n = bs.length)
    (hf : n = 0 ∨ n + off % 32 ≤ 32 * fuel) :
    byteAfter (pairsOf (runsOf bs (cutPieces 32 fuel off off n))) a b = if off ≤ a then bs.getD a b else b := by
  induction fuel generalizing off n b with
  | zero =>
    have : n = 0 := by omega
    subst this
    have : bs.length ≤ a ∨ ¬ off ≤ a := by omega
    rcases this with h | h <;> simp [cutPieces, runsOf, pairsOf, byteAfter, List.getD_eq_getElem?_getD, h]
  | succ fuel ih =>
    by_cases h0 : n = 0
    · subst h0
      have : bs.length ≤ a ∨ ¬ off ≤ a := by omega
      rcases this with h | h <;> simp [cutPieces, runsOf, pairsOf, byteAfter, List.getD_eq_getElem?_getD, h]
    · simp only [cutPieces, h0, if_false, runsOf, List.map_cons]
      rw [byteAfter_pairsOf_cons]
      generalize hm : min n (32 - off % 32) = m
      have := ih (off + m) (n - m) (if off ≤ a then ((bs.drop off).take m).getD (a - off) b else b) (by omega) (by omega)
      simp only [runsOf] at this
      rw [this]
      by_cases ha : off ≤ a
      · by_cases hlt : a < off + m
        · have h1 : ¬ off + m ≤ a := by omega
          have h2 : a - off < m := by omega
          have h3 : off + (a - off) = a := by omega
          simp [ha, h1, h2, h3, List.getD_eq_getElem?_getD, List.getElem?_drop]
        · have h1 : off + m ≤ a := by omega
          have h2 : ¬ a - off < m := by omega
          have hlen : ((bs.drop off).take m).length ≤ a - off := Nat.le_trans (List.length_take_le _ _) (by omega)
          rw [if_pos h1, if_pos ha, if_pos ha, List.getD_eq_getElem?_getD (l := (bs.drop off).take m),
            List.getElem?_eq_none hlen, Option.getD_none]
      · have h1 : ¬ off + m ≤ a := by omega
        simp [ha, h1]

/-- No mark merges to none. -/
theorem mergePoison_none (l : List (Option Origin)) (h : ∀ o ∈ l, o = none) : mergePoison l = none := by
  induction l with
  | nil => rfl
  | cons o l ih =>
    rw [h o (by simp)]
    exact ih fun p hp => h p (by simp [hp])

/-- Bytes without a mark go to device memory as they are cut into sectors. -/
theorem deviceWrites_unmarked (va : Nat) (l : List CByte) (marks : Tab Origin) (h : ∀ c ∈ l, c.mark = none) :
    deviceWrites va l marks = ((cutPieces 32 (l.length / 32 + 2) 0 va l.length).map fun p =>
      ⟨p.2.1, ((l.drop p.1).take p.2.2).map (·.b), none⟩, marks) := by
  have hpart : ∀ p : Nat × Nat × Nat, mergePoison (((l.drop p.1).take p.2.2).map (·.mark)) = none := fun p =>
    mergePoison_none _ fun o ho => by
      obtain ⟨c, hc, rfl⟩ := List.mem_map.mp ho
      exact h c (List.mem_of_mem_drop (List.mem_of_mem_take hc))
  unfold deviceWrites
  simp only [hpart]
  generalize cutPieces 32 (l.length / 32 + 2) 0 va l.length = ps
  suffices hs : ∀ acc : List EWrite, ps.foldl (fun (acc : List EWrite × Tab Origin) p =>
      (acc.1 ++ [⟨p.2.1, ((l.drop p.1).take p.2.2).map (·.b), none⟩], acc.2)) (acc, marks)
      = (acc ++ ps.map fun p => ⟨p.2.1, ((l.drop p.1).take p.2.2).map (·.b), none⟩, marks) by simpa using hs []
  induction ps with
  | nil => simp
  | cons p ps ih => exact fun acc => (ih _).trans (by simp)

/-- So they go to a buffer. -/
theorem bufferWrites_unmarked (b : BufId) (l : List CByte) (h : ∀ c ∈ l, c.mark = none) :
    (bufferWrites b 0 l []).1
      = (runsOf (l.map (·.b)) (cutPieces 32 (l.length / 32 + 2) 0 0 l.length)).map fun r => ⟨b, r.1, r.2, none⟩ := by
  simp [bufferWrites, deviceWrites_unmarked 0 l [] h, runsOf, Function.comp_def]


/-! ## A kernel takes its core (01 R19; 15 R393) -/

/-- AB of a kernel after writes to its zero-filled partition. -/
def abAfter (ws : List BWrite) : Buf :=
  let marks := ws.filterMap fun w => w.mark.map fun o => (w.addr / 32, o)
  (dedup (marks.map (·.1))).foldl (fun x sec =>
      x.mark sec ((mergePoison ((marks.filter fun m => m.1 == sec).map fun m => some m.2)).getD 0))
    (Buf.zero.write ((ws.filter fun w => w.mark.isNone).map fun w => (w.addr, w.bytes)))

/-- A kernel as a placement puts it on its core. -/
def placedKern (bw : BitVec 42) (l n core : Nat) (x : Launch) (o : Obj) (args : List CByte) (inits : List (List Byte)) : Kern :=
  let i := applyInits inits [] []
  let k := Kern.fresh l n core x.ctx x.gs x.gq x.res x.isw x.resil x.pstore (o.entry x.kidx)
  { k with tdt := i.1, fmts := i.2, spr := { k.spr with bwphase := bw }, ab := abAfter (bufferWrites .ab 0 args []).1 }

/-- A kernel that has just joined, under an identity of its own, is the one that a change finds. -/
theorem State.modKern_joined (s : State) (k : Kern) (f : Kern → Kern) (h : ∀ y ∈ s.kerns, y.kid ≠ k.kid) :
    ({ s with kerns := s.kerns ++ [k] } : State).modKern k.kid f = { s with kerns := s.kerns ++ [f k] } := by
  have hs : s.kerns.map (fun y => if y.kid = k.kid then f y else y) = s.kerns :=
    (List.map_congr_left fun y hy => if_neg (h y hy)).trans (List.map_id _)
  simp [State.modKern, hs]

theorem State.kern_joined (s : State) (k : Kern) (h : ∀ y ∈ s.kerns, y.kid ≠ k.kid) :
    ({ s with kerns := s.kerns ++ [k] } : State).kern k.kid = k := by
  have hn : s.kerns.find? (fun y => y.kid == k.kid) = none := List.find?_eq_none.mpr fun y hy => by simpa using h y hy
  simp [State.kern, State.kern?, List.find?_append, hn]

/-- Writes to AB of a kernel that has just joined, with a zero-filled AB, are its alone. -/
theorem State.writeBufs_joined (s : State) (k : Kern) (t : Taker) (ws : List BWrite) (h : ∀ y ∈ s.kerns, y.kid ≠ k.kid)
    (hab : k.ab = .zero) (hws : ∀ w ∈ ws, w.buf = .ab) :
    ({ s with kerns := s.kerns ++ [k] } : State).writeBufs k.kid t ws = { s with kerns := s.kerns ++ [{ k with ab := abAfter ws }] } := by
  have hmine : ws.filter (fun w => w.buf == .ab) = ws := List.filter_eq_self.mpr fun w hw => by simp [hws w hw]
  have hother : ∀ b, b ≠ BufId.ab → ws.filter (fun w => w.buf == b) = [] := fun b hb =>
    List.filter_eq_nil_iff.mpr fun w hw => by simp [hws w hw, Ne.symm hb]
  simp only [State.writeBufs, List.foldl_cons, List.foldl_nil, hmine, hother .ws (by decide), hother .xs (by decide),
    hother .ns (by decide), List.isEmpty_nil, ite_self, Bool.and_true, if_true]
  cases ws with
  | nil => simp only [List.isEmpty_nil, if_true]; rw [show abAfter [] = k.ab from hab.symm]
  | cons w ws =>
    have hgood : (({ s with kerns := s.kerns ++ [k] } : State).kern k.kid).buf .ab = .zero := by rw [s.kern_joined k h]; exact hab
    simp only [List.isEmpty_cons, Bool.false_eq_true, if_false, State.consumePartial, hgood]
    rw [if_pos (by rfl), s.modKern_joined k _ h]
    simp only [Kern.buf, Kern.setBuf, hab]
    rfl

/-- A placement's writes are to AB. -/
theorem buf_of_mem_bufferWrites {b : BufId} {addr : Nat} {l : List CByte} {m : Tab Origin} {w : BWrite}
    (h : w ∈ (bufferWrites b addr l m).1) : w.buf = b := by
  obtain ⟨x, _, rfl⟩ := List.mem_map.mp h
  rfl

/-- A kernel under an identity that no kernel has joins the others, and nothing else changes. -/
theorem State.placeKern_new (s : State) (l n core : Nat) (x : Launch) (o : Obj) (args : List CByte) (inits : List (List Byte))
    (h : ∀ y ∈ s.kerns, y.kid ≠ l * 256 + n) :
    s.placeKern l n core x o args inits
      = { s with kerns := s.kerns ++ [placedKern (s.context x.ctx).bwphase l n core x o args inits] } :=
  s.writeBufs_joined _ _ _ h rfl fun _ => buf_of_mem_bufferWrites

/-- Whatever identities there are, a placed kernel changes no memory, domain or launch, and joins the roster. -/
theorem State.roster_placeKern (s : State) (l n core : Nat) (x : Launch) (o : Obj) (args : List CByte) (inits : List (List Byte)) :
    (s.placeKern l n core x o args inits).roster
      = (s.mem, s.doms, s.launches, s.kerns.map (fun k => (k.kid, k.core)) ++ [(l * 256 + n, core)]) := by
  unfold State.placeKern
  rw [State.roster_writeBufs]
  simp [State.roster, Kern.fresh]

/-- The kernels of a gang take their cores one after the other. -/
def State.placeKerns (s : State) (l : Nat) (es : List (Nat × Nat)) (x : Launch) (o : Obj) (args : List CByte) (inits : List (List Byte)) :
    State :=
  es.foldl (fun s e => s.placeKern l e.1 e.2 x o args inits) s

theorem State.roster_placeKerns (s : State) (l : Nat) (es : List (Nat × Nat)) (x : Launch) (o : Obj) (args : List CByte)
    (inits : List (List Byte)) :
    (s.placeKerns l es x o args inits).roster
      = (s.mem, s.doms, s.launches, s.kerns.map (fun k => (k.kid, k.core)) ++ es.map fun e => (l * 256 + e.1, e.2)) := by
  induction es generalizing s with
  | nil => simp [State.placeKerns, State.roster]
  | cons e es ih =>
    have hr := s.roster_placeKern l e.1 e.2 x o args inits
    simp only [State.roster, Prod.mk.injEq] at hr
    obtain ⟨hm, hd, hl, hk⟩ := hr
    refine (ih (s.placeKern l e.1 e.2 x o args inits)).trans ?_
    rw [hm, hd, hl, hk]
    simp

/-- Under identities that are new and differ, the kernels of a gang join the others, and nothing else changes. -/
theorem State.placeKerns_new (s : State) (l : Nat) (es : List (Nat × Nat)) (x : Launch) (o : Obj) (args : List CByte)
    (inits : List (List Byte)) (hnew : ∀ y ∈ s.kerns, ∀ e ∈ es, y.kid ≠ l * 256 + e.1) (hd : (es.map (·.1)).Nodup) :
    s.placeKerns l es x o args inits
      = { s with kerns := s.kerns ++ es.map fun e => placedKern (s.context x.ctx).bwphase l e.1 e.2 x o args inits } := by
  induction es generalizing s with
  | nil => simp [State.placeKerns]
  | cons e es ih =>
    obtain ⟨he, hd⟩ := List.nodup_cons.mp hd
    have hstep := s.placeKern_new l e.1 e.2 x o args inits fun y hy => hnew y hy e (by simp)
    simp only [State.placeKerns, List.foldl_cons] at ih ⊢
    rw [hstep, ih _ _ hd]
    · simp [State.context]
    · intro y hy f hf
      rcases List.mem_append.mp hy with hy | hy
      · exact hnew y hy f (by simp [hf])
      · obtain rfl := List.mem_singleton.mp hy
        have : e.1 ≠ f.1 := fun h => he (List.mem_map.mpr ⟨f, hf, h.symm⟩)
        simp only [placedKern, Kern.fresh]
        omega

theorem abAfter_unmarked (runs : List (Nat × List Byte)) : abAfter (runs.map fun r => ⟨.ab, r.1, r.2, none⟩) = Buf.zero.write runs := by
  have hmarks : (runs.map fun r => (⟨.ab, r.1, r.2, none⟩ : BWrite)).filterMap (fun w => w.mark.map fun o => (w.addr / 32, o)) = [] := by
    simp
  have hruns : ((runs.map fun r => (⟨.ab, r.1, r.2, none⟩ : BWrite)).filter fun w => w.mark.isNone).map (fun w => (w.addr, w.bytes))
      = runs := by
    simp [List.filter_map, Function.comp_def]
  simp only [abAfter, hmarks, hruns]
  rfl

/-- The arguments that a placement read without a mark stand at AB 0. -/
theorem placedKern_ab (bw : BitVec 42) (l n core : Nat) (x : Launch) (o : Obj) (args : List CByte) (inits : List (List Byte))
    (h : args.all (·.mark.isNone) = true) :
    (placedKern bw l n core x o args inits).ab.marks = []
      ∧ ∀ a, (placedKern bw l n core x o args inits).ab.mem.byte a = (args.map (·.b)).getD a 0 := by
  have hnone : ∀ c ∈ args, c.mark = none := by simpa using h
  have hab : (placedKern bw l n core x o args inits).ab
      = Buf.zero.write (runsOf (args.map (·.b)) (cutPieces 32 (args.length / 32 + 2) 0 0 args.length)) := by
    rw [← abAfter_unmarked, ← bufferWrites_unmarked .ab args hnone]; rfl
  obtain ⟨hm, hb⟩ := Buf.zero.write_unmarked (runsOf (args.map (·.b)) (cutPieces 32 (args.length / 32 + 2) 0 0 args.length)) rfl rfl
  rw [hab]
  refine ⟨hm, fun a => (hb a).trans ?_⟩
  rw [byteAfter_runsOf_cutPieces (args.map (·.b)) _ 0 args.length a _ (by simp) (by omega)]
  simp; rfl


/-! ## Domains settle at their sites -/

/-- What reads as a domain once a plan's domain has settled: itself, a resident that gets its save area, or what was there. -/
theorem State.dom?_settle (s : State) (l j : Nat) (p : Plan) (x : Dom) :
    (s.settle l p x).dom? j =
      let y := if j = l * 4 + p.die then some { x with die := p.die, line := p.line, site := p.site, place := p.place } else s.dom? j
      match p.peer with
      | some (e, a) => if j = e then y.map fun z => { z with place := { z.place with save := some a } } else y
      | none => y := by
  have hset : ∀ z : Dom, (({ s with doms := Tab.set s.doms (l * 4 + p.die) z } : State)).dom? j
      = if j = l * 4 + p.die then some z else s.dom? j := fun z => by
    by_cases hj : j = l * 4 + p.die
    · simp [State.dom?, hj]
    · simp [State.dom?, hj, Tab.get?_set_ne _ _ _ _ hj]
  have hsites : ∀ t : State, (if p.fresh then { t with sites := Tab.set t.sites p.site ⟨[l * 4 + p.die], none, 2 ^ 20, 0, none⟩ }
      else t.modSite p.site fun t => { t with doms := t.doms ++ [l * 4 + p.die] }).dom? j = t.dom? j := fun t => by
    split
    · rfl
    · simp [State.dom?]
  unfold State.settle
  dsimp only
  rw [hsites]
  cases p.peer with
  | none => exact hset _
  | some ea =>
    dsimp only
    by_cases hj : j = ea.1
    · rw [if_pos hj, hj, State.dom?_modDom_self, ← hj, hset]
    · rw [if_neg hj, State.dom?_modDom_ne _ _ _ _ hj, hset]

/-- A state but for its domains and sites. -/
def State.unsettled (s : State) : State := { s with doms := [], sites := [] }

theorem State.unsettled_modDom (s : State) (d : Nat) (f : Dom → Dom) : (s.modDom d f).unsettled = s.unsettled := by
  unfold State.modDom
  split <;> rfl

theorem State.unsettled_modSite (s : State) (i : Nat) (f : Site → Site) : (s.modSite i f).unsettled = s.unsettled := by
  unfold State.modSite
  split <;> rfl

theorem State.unsettled_setSites (s : State) (ts : Tab Site) : ({ s with sites := ts } : State).unsettled = s.unsettled := rfl

/-- A settling domain touches domains and sites alone. -/
theorem State.unsettled_settle (s : State) (l : Nat) (p : Plan) (x : Dom) : (s.settle l p x).unsettled = s.unsettled := by
  unfold State.settle
  dsimp only
  cases p.peer with
  | none =>
    split
    · rfl
    · exact State.unsettled_modSite _ _ _
  | some ea =>
    split
    · exact (State.unsettled_setSites _ _).trans (State.unsettled_modDom _ _ _)
    · exact (State.unsettled_modSite _ _ _).trans (State.unsettled_modDom _ _ _)

theorem State.unsettled_takePlaces (s : State) (l : Nat) (x : Launch) (ps : List Plan) :
    (s.takePlaces l x ps).unsettled = s.unsettled :=
  foldl_keeps State.unsettled _ (fun s p => s.unsettled_settle l p _) ps s

/-- A domain of a launch before its start (01 R19 step 8). -/
def Dom.Unstarted (l yfirst : Nat) (d : Dom) : Prop := d.launch = l ∧ d.started = false ∧ d.dcyc = 0 ∧ d.declared = yfirst

/-- Once settled a domain that is not started stays so while others of its launch settle. -/
theorem State.unstarted_settle {s : State} {l j y : Nat} {p : Plan} {x : Dom} (hx : x.Unstarted l y)
    (h : j = l * 4 + p.die ∨ ∃ d, s.dom? j = some d ∧ d.Unstarted l y) : ∃ d, (s.settle l p x).dom? j = some d ∧ d.Unstarted l y := by
  rw [State.dom?_settle]
  obtain ⟨d, hd, hu⟩ : ∃ d, (if j = l * 4 + p.die then
      some { x with die := p.die, line := p.line, site := p.site, place := p.place } else s.dom? j) = some d ∧ d.Unstarted l y := by
    by_cases hj : j = l * 4 + p.die
    · exact ⟨_, if_pos hj, hx⟩
    · obtain ⟨d, hd, hu⟩ := h.resolve_left hj
      exact ⟨d, (if_neg hj).trans hd, hu⟩
  simp only [hd]
  split
  · split
    · exact ⟨_, rfl, hu⟩
    · exact ⟨d, rfl, hu⟩
  · exact ⟨d, rfl, hu⟩

/-- Every domain of a gang that has taken its places is there, not started. -/
theorem State.unstarted_takePlaces (s : State) (l : Nat) (x : Launch) (ps : List Plan) :
    ∀ p ∈ ps, ∃ d, (s.takePlaces l x ps).dom? (l * 4 + p.die) = some d ∧ d.Unstarted l x.yfirst := by
  have hnew : (Dom.new l x.q x.yfirst).Unstarted l x.yfirst := ⟨rfl, rfl, rfl, rfl⟩
  have hkeep : ∀ (j : Nat) (ps : List Plan) (s : State), (∃ d, s.dom? j = some d ∧ d.Unstarted l x.yfirst) →
      ∃ d, (s.takePlaces l x ps).dom? j = some d ∧ d.Unstarted l x.yfirst := by
    intro j ps
    induction ps with
    | nil => exact fun _ h => h
    | cons p ps ih => exact fun s h => ih _ (s.unstarted_settle hnew (.inr h))
  induction ps generalizing s with
  | nil => simp
  | cons p ps ih =>
    intro q hq
    rcases List.mem_cons.mp hq with rfl | hq
    · exact hkeep _ ps _ (s.unstarted_settle hnew (.inl rfl))
    · exact ih _ q hq


/-! ## GANG_PLACEMENT -/

/-- The images of a gang's object are in the instruction stores of its cores (15 R394). -/
def State.loadImages (s : State) (cores : List Nat) (first : Bool) (img : Tab (BitVec 512)) : State :=
  cores.foldl (fun s c => s.modCore c fun y =>
    let y := if first then y.clean else y
    { y with is := img.foldl (fun t b => Tab.set t b.1 b.2) y.is }) s

/-- The linear indices of a gang's kernels with their cores. -/
def gangMembers (ps : List Plan) : List (Nat × Nat) :=
  (List.range (ps.flatMap (·.cores)).length).zip (ps.flatMap (·.cores))

/-- The initialisers of a launch's kernel among what its placement read (R438). -/
def initsOf (x : Launch) (o : Obj) (parts : List (List CByte)) : List (List Byte) :=
  records (field (o.kernel x.kidx) 4 2) ((parts.getD 3 []).map (·.b))

/-- The kernels of a placed gang stand on their cores. -/
def State.withGang (s : State) (l : Nat) (x : Launch) (ps : List Plan) (o : Obj) (args : List CByte) (parts : List (List CByte)) : State :=
  ((s.loadImages (ps.flatMap (·.cores)) (ps.all (·.fresh)) (imagesOf parts)).takePlaces l x ps).placeKerns l (gangMembers ps) x o args
    (initsOf x o parts)

/-- GANG_PLACEMENT of a launch that may go where the choice says, once everything it reads has been read. -/
theorem exec_gangPlacement {s u v : State} {l : Nat} {ch : List Nat} {x : Launch} {ps : List Plan} {args : List CByte}
    {parts : List (List CByte)} (hl : s.launch? l = some x) (hst : x.st = .waiting) (hbe : s.behind l x = false)
    (hheld : s.heldBy (.placement l) = false) (hps : s.plans x ch = some ps)
    (hargs : s.hubRange x.ctx x.argaddr x.argsize = .ok (u, some args))
    (hparts : u.hubRanges (Tab.get default s.objs x.obj).ctx (placeReads x (Tab.get default s.objs x.obj) (ps.all (·.fresh)))
      = .ok (v, some parts)) :
    let w := v.withGang l x ps (Tab.get default s.objs x.obj) args parts
    exec (.gangPlacement l ch) s = .next (w.modLaunch l fun y =>
      { y with st := .placed, cores := ps.flatMap (·.cores), placedAt := w.hub.time }) := by
  intro w
  show execGangPlacement l ch s = _
  simp only [execGangPlacement, hl, hst, hbe, hheld, hps, hargs, hparts, beq_self_eq_true, Bool.not_false, Bool.and_self, if_true]
  rfl

section
variable (v : State) (l : Nat) (x : Launch) (ps : List Plan) (o : Obj) (args : List CByte) (parts : List (List CByte))

/-- Up to the gang's kernels, only cores, domains and sites have changed. -/
theorem State.keeps_takePlaces_loadImages (cores : List Nat) (first : Bool) (img : Tab (BitVec 512)) :
    let s := (v.loadImages cores first img).takePlaces l x ps
    s.mem = v.mem ∧ s.launches = v.launches ∧ s.kerns = v.kerns ∧ s.ctxs = v.ctxs := by
  intro s
  have hs := (v.loadImages cores first img).unsettled_takePlaces l x ps
  have hi : ∀ {β : Type} (g : State → β), (∀ t c f, g (State.modCore t c f) = g t) → g (v.loadImages cores first img) = g v :=
    fun g hg => foldl_keeps g _ (fun t c => hg t c _) cores v
  exact ⟨(congrArg State.mem hs).trans (hi State.mem fun _ _ _ => rfl),
    (congrArg State.launches hs).trans (hi State.launches fun _ _ _ => rfl),
    (congrArg State.kerns hs).trans (hi State.kerns fun _ _ _ => rfl),
    (congrArg State.ctxs hs).trans (hi State.ctxs fun _ _ _ => rfl)⟩

/-- The kernels of a gang join those that are there; memory and launches stay, and the gang's domains are there, not started. -/
theorem State.withGang_roster :
    let w := v.withGang l x ps o args parts
    w.mem = v.mem ∧ w.launches = v.launches
      ∧ w.kerns.map (fun k => (k.kid, k.core))
        = v.kerns.map (fun k => (k.kid, k.core)) ++ (gangMembers ps).map (fun e => (l * 256 + e.1, e.2))
      ∧ ∀ p ∈ ps, ∃ d, w.dom? (l * 4 + p.die) = some d ∧ d.Unstarted l x.yfirst := by
  intro w
  let t := (v.loadImages (ps.flatMap (·.cores)) (ps.all (·.fresh)) (imagesOf parts)).takePlaces l x ps
  obtain ⟨hmem, hlaunches, hkerns, -⟩ := v.keeps_takePlaces_loadImages l x ps (ps.flatMap (·.cores)) (ps.all (·.fresh)) (imagesOf parts)
  have hw : w.roster = (t.mem, t.doms, t.launches, _) := t.roster_placeKerns l (gangMembers ps) x o args (initsOf x o parts)
  simp only [State.roster, Prod.mk.injEq] at hw
  obtain ⟨h1, h2, h3, h4⟩ := hw
  refine ⟨h1.trans hmem, h3.trans hlaunches, h4.trans (by rw [hkerns]), ?_⟩
  intro p hp
  obtain ⟨d, hd, hu⟩ := (v.loadImages (ps.flatMap (·.cores)) (ps.all (·.fresh)) (imagesOf parts)).unstarted_takePlaces l x ps p hp
  exact ⟨d, (congrArg (Tab.get? · (l * 4 + p.die)) h2).trans hd, hu⟩

/-- Linear indices of a gang are below its size, and each names one core. -/
theorem gangMembers_map_fst : (gangMembers ps).map (·.1) = List.range (ps.flatMap (·.cores)).length :=
  List.map_fst_zip (by simp)

theorem core_of_mem_gangMembers {e : Nat × Nat} (he : e ∈ gangMembers ps) : (ps.flatMap (·.cores))[e.1]? = some e.2 := by
  obtain ⟨i, hi, rfl⟩ := List.getElem_of_mem he
  simp only [gangMembers, List.getElem_zip, List.getElem_range]
  exact List.getElem?_eq_getElem _

theorem eq_of_mem_gangMembers {e f : Nat × Nat} (he : e ∈ gangMembers ps) (hf : f ∈ gangMembers ps) (h : e.1 = f.1) : e = f := by
  have hef : some e.2 = some f.2 := by rw [← core_of_mem_gangMembers ps he, ← core_of_mem_gangMembers ps hf, h]
  exact Prod.ext h (Option.some.inj hef)

/-- Where no kernel of the launch was there, each kernel of the gang stands as it was placed. -/
theorem State.has_placedKern (hnew : ∀ k ∈ v.kerns, k.kid / 256 ≠ l) (hsize : (ps.flatMap (·.cores)).length ≤ 256) {e : Nat × Nat}
    (he : e ∈ gangMembers ps) :
    (v.withGang l x ps o args parts).kern? (l * 256 + e.1)
      = some (placedKern (v.context x.ctx).bwphase l e.1 e.2 x o args (initsOf x o parts)) := by
  obtain ⟨-, -, hkerns, hctxs⟩ := v.keeps_takePlaces_loadImages l x ps (ps.flatMap (·.cores)) (ps.all (·.fresh)) (imagesOf parts)
  have hlt : ∀ f ∈ gangMembers ps, f.1 < 256 := fun f hf => by
    have := List.mem_map_of_mem (f := (·.1)) hf
    rw [gangMembers_map_fst, List.mem_range] at this
    omega
  have hkid : ∀ k ∈ v.kerns, ∀ f ∈ gangMembers ps, k.kid ≠ l * 256 + f.1 := fun k hk f hf => by
    have := hnew k hk
    have := hlt f hf
    omega
  have hw : v.withGang l x ps o args parts = _ :=
    State.placeKerns_new _ l (gangMembers ps) x o args (initsOf x o parts) (by rw [hkerns]; exact hkid)
      (by rw [gangMembers_map_fst]; exact List.nodup_range)
  rw [hw, State.kern?, hkerns]
  have hold : v.kerns.find? (fun k => k.kid == l * 256 + e.1) = none :=
    List.find?_eq_none.mpr fun k hk => by simpa using hkid k hk e he
  have hfound : (gangMembers ps).find? (fun f => l * 256 + f.1 == l * 256 + e.1) = some e := by
    cases hf : (gangMembers ps).find? (fun f => l * 256 + f.1 == l * 256 + e.1) with
    | none => exact absurd (List.find?_eq_none.mp hf e he) (by simp)
    | some f =>
      have hfe : f.1 = e.1 := by simpa using List.find?_some hf
      rw [eq_of_mem_gangMembers ps (List.mem_of_find?_eq_some hf) he hfe]
  rw [List.find?_append, hold, Option.none_or, List.find?_map]
  simp only [Function.comp_def, placedKern, Kern.fresh, hfound, Option.map_some, State.context, hctxs]

end


/-! ## Launches leave their cores -/

/-- The kernels of a launch that leaves its sites are gone; but for domains and sites nothing else has changed. -/
theorem State.vacate_keeps (s : State) (l : Nat) :
    (s.vacate l).kerns = s.kerns.filter (fun k => k.launch != l) ∧ (s.vacate l).mem = s.mem ∧ (s.vacate l).launches = s.launches := by
  have h : (s.vacate l).unsettled = ({ s with kerns := s.kerns.filter fun k => k.launch != l } : State).unsettled :=
    foldl_keeps State.unsettled _ (fun s d => by dsimp only; split <;> rfl) _ _
  have hk := congrArg State.kerns h
  have hm := congrArg State.mem h
  have hl := congrArg State.launches h
  exact ⟨hk, hm, hl⟩

/-- Cleaning cores changes cores alone. -/
theorem State.cleanCores_keeps (s : State) (cores : List Nat) :
    (s.cleanCores cores).kerns = s.kerns ∧ (s.cleanCores cores).mem = s.mem ∧ (s.cleanCores cores).launches = s.launches := by
  have h : ∀ {β : Type} (g : State → β), (∀ t c f, g (State.modCore t c f) = g t) → g (s.cleanCores cores) = g s :=
    fun g hg => foldl_keeps g _ (fun t c => by
      split
      · rfl
      · exact hg t c _) cores s
  exact ⟨h State.kerns fun _ _ _ => rfl, h State.mem fun _ _ _ => rfl, h State.launches fun _ _ _ => rfl⟩

/-- A launch that leaves its cores takes its kernels with it. -/
theorem State.vacate_cleanCores_keeps (s : State) (l : Nat) (cores : List Nat) :
    let t := (s.vacate l).cleanCores cores
    t.kerns = s.kerns.filter (fun k => k.launch != l) ∧ t.mem = s.mem ∧ t.launches = s.launches := by
  obtain ⟨hk, hm, hl⟩ := s.vacate_keeps l
  obtain ⟨hk', hm', hl'⟩ := (s.vacate l).cleanCores_keeps cores
  exact ⟨hk'.trans hk, hm'.trans hm, hl'.trans hl⟩

/-- A changed launch leaves the kernels where they are. -/
theorem State.kern?_modLaunch (s : State) (l k : Nat) (f : Launch → Launch) : (s.modLaunch l f).kern? k = s.kern? k := by
  simp [State.kern?]

/-! ## DOMAIN_START -/

/-- DOMAIN_START of a domain of a placed launch, 256 cycles after the placement or later. -/
theorem exec_domainStart {s : State} {d : Nat} {x : Dom} {l : Launch} (hd : s.dom? d = some x) (hl : s.launch? x.launch = some l)
    (hns : x.started = false) (hst : l.st = .placed) (hpre : x.preempt = false) (hret : s.onRetired d = false)
    (htime : l.placedAt + 256 ≤ s.hub.time) :
    let t := (s.modDom d fun y => { y with started := true, dcyc := 0, ran := 0 }).modSite x.site fun t =>
      if t.running.isNone && t.chosen.isNone && t.switch == 0 then { t with running := some d } else t
    exec (.domainStart d) s
      = .next (if t.allStarted x.launch then t.modLaunch x.launch fun y => { y with st := .running } else t) := by
  intro t
  have hdue : decide (s.hub.time < l.placedAt + 256) = false := by simpa using htime
  show execDomainStart d s = _
  simp only [execDomainStart, hd, hl, hns, hst, hpre, hret, hdue, bne_self_eq_false, Bool.or_self, Bool.false_eq_true, if_false]
  rfl

/-! ## CONTEXT_RESTORE -/

/-- The kernels of a saved launch return to new cores. -/
def State.restoreKerns (s : State) (l : Nat) (fresh : Bool) (es : List ((Kern × Tab (BitVec 512)) × Nat)) : State :=
  es.foldl (fun s e => s.restoreKern l e.2 fresh e.1.1 e.1.2) s

/-- Returning kernels join the others, and but for cores nothing else changes. -/
theorem State.restoreKerns_keeps (s : State) (l : Nat) (fresh : Bool) (es : List ((Kern × Tab (BitVec 512)) × Nat)) :
    let t := s.restoreKerns l fresh es
    t.mem = s.mem ∧ t.launches = s.launches ∧ t.recvs = s.recvs
      ∧ t.kerns = s.kerns ++ es.map fun e => e.1.1.moveTo l e.2 (s.context e.1.1.ctx).bwphase := by
  induction es generalizing s with
  | nil => simp [State.restoreKerns]
  | cons e es ih =>
    obtain ⟨hm, hl, hr, hk⟩ := ih (s.restoreKern l e.2 fresh e.1.1 e.1.2)
    exact ⟨hm, hl, hr, hk.trans (by simp [State.restoreKern, State.context])⟩

/-- Without an open receive none is posted again. -/
theorem State.repost_of_no_recvs (s : State) (l : Nat) (h : s.recvs = []) : s.repost l = s := by
  simp only [State.repost, h, List.map_nil, List.filter_nil, List.foldl_nil]
  exact congrArg (fun r => { s with recvs := r }) h.symm

/-- The domains of a saved launch settle again. -/
theorem State.unsettled_foldl_settle (s : State) (l : Nat) (es : List (Plan × Dom)) :
    (es.foldl (fun s e => s.settle l e.1 { e.2 with started := true }) s).unsettled = s.unsettled :=
  foldl_keeps State.unsettled _ (fun s e => s.unsettled_settle l e.1 _) es s

/-- A saved launch that has its new cores, before its sites run it. -/
def State.withRestored (s : State) (l : Nat) (x : Launch) (ps : List Plan) : State :=
  ((ps.zip (x.savedDoms.map (·.2))).foldl (fun s e => s.settle l e.1 { e.2 with started := true }) s).restoreKerns l (ps.all (·.fresh))
    ((x.saved.zip x.savedIs).zip (ps.flatMap (·.cores)))

/-- The kernels of a restored launch join the others; memory, launches and receives stay. -/
theorem State.withRestored_keeps (s : State) (l : Nat) (x : Launch) (ps : List Plan) :
    let w := s.withRestored l x ps
    w.mem = s.mem ∧ w.launches = s.launches ∧ w.recvs = s.recvs
      ∧ w.kerns = s.kerns ++ ((x.saved.zip x.savedIs).zip (ps.flatMap (·.cores))).map fun e =>
          e.1.1.moveTo l e.2 (s.context e.1.1.ctx).bwphase := by
  have h := s.unsettled_foldl_settle l (ps.zip (x.savedDoms.map (·.2)))
  have hmem := congrArg State.mem h
  have hlaunches := congrArg State.launches h
  have hrecvs := congrArg State.recvs h
  have hkerns := congrArg State.kerns h
  have hctxs := congrArg State.ctxs h
  simp only [State.unsettled] at hmem hlaunches hrecvs hkerns hctxs
  obtain ⟨hm, hl, hr, hk⟩ := State.restoreKerns_keeps _ l (ps.all (·.fresh)) ((x.saved.zip x.savedIs).zip (ps.flatMap (·.cores)))
  refine ⟨hm.trans hmem, hl.trans hlaunches, hr.trans hrecvs, hk.trans ?_⟩
  simp only [State.context, hkerns, hctxs]

/-- The sites of placed domains run them where nothing else runs. -/
def State.runSites (s : State) (l : Nat) (ps : List Plan) : State :=
  ps.foldl (fun s p => s.modSite p.site fun t =>
    if t.running.isNone && t.chosen.isNone && t.switch == 0 then { t with running := some (l * 4 + p.die) } else t) s

/-- Where no receive is open, sites that run restored domains leave the rest as it is. -/
theorem State.repost_runSites_keeps (s : State) (l : Nat) (ps : List Plan) (h : s.recvs = []) :
    let t := (s.runSites l ps).repost l
    t.mem = s.mem ∧ t.launches = s.launches ∧ t.kerns = s.kerns := by
  intro t
  have hu : (s.runSites l ps).unsettled = s.unsettled :=
    foldl_keeps State.unsettled _ (fun s (p : Plan) => s.unsettled_modSite p.site _) ps s
  have hrecvs := congrArg State.recvs hu
  have hmem := congrArg State.mem hu
  have hlaunches := congrArg State.launches hu
  have hkerns := congrArg State.kerns hu
  have ht : t = s.runSites l ps := State.repost_of_no_recvs _ l (hrecvs.trans h)
  exact ⟨ht ▸ hmem, ht ▸ hlaunches, ht ▸ hkerns⟩

/-- A launch that is back on cores. -/
def Launch.backOn (x : Launch) (cores : List Nat) (time : Nat) : Launch :=
  { x with st := .running, cores := cores, placedAt := time, saved := [], savedDoms := [], savedIs := [] }

/-- CONTEXT_RESTORE of a saved launch on a choice that places it in domains as they were. -/
theorem exec_contextRestore {s : State} {l : Nat} {ch : List Nat} {x : Launch} {ps : List Plan} (hl : s.launch? l = some x)
    (hst : x.st = .saved) (hbe : s.behind l x = false) (hps : s.plans x ch = some ps) (hby : s.placesBy x ch = true) :
    let w := s.withRestored l x ps
    exec (.contextRestore l ch) s
      = .next (((w.modLaunch l fun y => y.backOn (ps.flatMap (·.cores)) w.hub.time).runSites l ps).repost l) := by
  intro w
  show execContextRestore l ch s = _
  simp only [execContextRestore, hl, hst, hbe, hps, hby, beq_self_eq_true, Bool.not_false, Bool.and_self, if_true,
    Bool.true_eq_false, if_false]
  rfl

/-! ## CONTEXT_SAVE and LAUNCH_END -/

/-- CONTEXT_SAVE of a launch whose cores stand: the launch leaves them once its save area is written. -/
theorem exec_contextSave {s u : State} {l : Nat} {x : Launch} {all : Bool} (hl : s.launch? l = some x) (hst : x.st = .stopping)
    (hsav : s.savable l = true) (hw : s.writeSave x = (u, all)) :
    exec (.contextSave l) s = .next (if all then u.leaveSaved l x else u) := by
  show execContextSave l s = _
  cases all <;> simp [execContextSave, hl, hst, hsav, hw]

/-- LAUNCH_END of a launch each of whose kernels has ended, once its context's log entries are written. -/
theorem exec_launchEnd {s : State} {l : Nat} {x : Launch} (hl : s.launch? l = some x) (hst : x.st = .running ∨ x.st = .stopping)
    (hend : ∀ k ∈ s.kerns, k.launch = l → s.kernEnded k = true) (hfills : ∀ f ∈ s.fills, f.ctx ≠ x.ctx) :
    let t := (s.vacate l).cleanCores x.cores
    exec (.launchEnd l) s = .next (({ t with
      launches := t.launches.erase l, hub := { t.hub with victims := t.hub.victims.filter (· != l) } } : State).endPacket x.q l 0 0) := by
  have hst' : (x.st == .running || x.st == .stopping) = true := by simpa using hst
  have hend' : (s.kerns.all fun k => k.launch != l || s.kernEnded k) = true := by
    refine List.all_eq_true.mpr fun k hk => ?_
    by_cases h : k.launch = l
    · simp [hend k hk h]
    · simp [h]
  have hfills' : (s.fills.all fun f => f.ctx != x.ctx) = true := by simpa using hfills
  show execLaunchEnd l s = _
  simp only [execLaunchEnd, hl, hst', hend', hfills', Bool.and_self, if_true]

/-- Settles O44, each clause from what the shared steps of placing, starting, saving, restoring and ending a gang keep. -/
theorem gangsArePlacedStartAndEnd : Obligations.GangsArePlacedStartAndEnd := by
  unfold Obligations.GangsArePlacedStartAndEnd
  refine ⟨?placed, ?started, ?saved, ?restored, ?ended⟩
  case placed =>
    intro s u v l ch x ps args parts hl hst hbe hheld hps o hargs hparts hlv
    obtain ⟨hmem, hlaunches, hkerns, hdoms⟩ := v.withGang_roster l x ps o args parts
    have hcores := s.cores_of_plans hps
    have hl' : (v.withGang l x ps o args parts).launch? l = some x := (congrArg (Tab.get? · l) hlaunches).trans hlv
    refine ⟨_, exec_gangPlacement hl hst hbe hheld hps hargs hparts, by simpa using hmem, ?_, hcores, ?_, ?_, ?_⟩
    · exact ⟨_, by rw [State.launch?_modLaunch_self, hl']; rfl, rfl, rfl⟩
    · rw [State.modLaunch_kerns, hkerns]; rfl
    · intro p hp
      obtain ⟨d, hd, hlaunch, hstarted, hdcyc, hdecl⟩ := hdoms p hp
      exact ⟨d, by simpa [State.dom?] using hd, hlaunch, hstarted, hdcyc, hdecl⟩
    · intro hnew hsize e he
      have hlen : (ps.flatMap (·.cores)).length ≤ 256 := by rw [hcores]; simpa using hsize
      have hk := v.has_placedKern l x ps o args parts hnew hlen he
      refine ⟨_, (State.kern?_modLaunch _ _ _ _).trans hk, rfl, fun hmarks => placedKern_ab _ _ _ _ _ _ _ _ hmarks⟩
  case started =>
    intro s d x l hd hl hns hst hpre hret htime
    refine ⟨_, exec_domainStart hd hl hns hst hpre hret htime, ?_⟩
    have hstart := s.dom?_modDom_self d fun y => { y with started := true, dcyc := 0, ran := 0 }
    rw [hd, Option.map_some] at hstart
    split <;> simpa [State.dom?] using hstart
  case saved =>
    intro s u l x all hl hst hsav hw
    have hexec := exec_contextSave hl hst hsav hw
    refine ⟨fun hall => by simpa [hall] using hexec, fun hall hlu => ⟨_, by simpa [hall] using hexec, ?_⟩⟩
    obtain ⟨hk, hm, hls⟩ := u.vacate_cleanCores_keeps l x.cores
    have hlu' : ((u.vacate l).cleanCores x.cores).launch? l = some x := (congrArg (Tab.get? · l) hls).trans hlu
    refine ⟨by simpa [State.leaveSaved] using hm, by simpa [State.leaveSaved] using hk, ?_⟩
    exact ⟨_, by rw [State.leaveSaved, State.launch?_modLaunch_self, hlu']; rfl, rfl, rfl, rfl⟩
  case restored =>
    intro s l ch x ps hl hst hbe hps hsizes hlen hrecvs
    have hby : s.placesBy x ch = true := by simp [State.placesBy, hps, hsizes, hlen]
    obtain ⟨hm, hls, hr, hk⟩ := s.withRestored_keeps l x ps
    have hl' : (s.withRestored l x ps).launch? l = some x := (congrArg (Tab.get? · l) hls).trans hl
    refine ⟨_, exec_contextRestore hl hst hbe hps hby, ?_⟩
    obtain ⟨hm', hls', hk'⟩ := State.repost_runSites_keeps
      ((s.withRestored l x ps).modLaunch l fun y => y.backOn (ps.flatMap (·.cores)) (s.withRestored l x ps).hub.time) l ps
      (by simpa [hr] using hrecvs)
    refine ⟨hm'.trans (by simpa using hm), ⟨x.backOn (ps.flatMap (·.cores)) (s.withRestored l x ps).hub.time, (congrArg (Tab.get? · l) hls').trans ?_, rfl, rfl, rfl⟩,
      hk'.trans (by simpa using hk)⟩
    exact (State.launch?_modLaunch_self _ l _).trans (by rw [hl']; rfl)
  case ended =>
    intro s l x hl hst hend hfills
    obtain ⟨hk, hm, hls⟩ := s.vacate_cleanCores_keeps l x.cores
    exact ⟨_, exec_launchEnd hl hst hend hfills, hm, hk, congrArg (Tab.erase · l) hls⟩


/-! ## Words as bytes, and the results of integer atomics (05 R136) -/

@[simp] theorem length_leBytes (n x : Nat) : (leBytes n x).length = n := by
  induction n generalizing x with
  | zero => rfl
  | succ n ih => simp [leBytes, ih]

/-- The bytes of a number that is made of bytes are those bytes. -/
theorem leBytes_leNat (l : List Byte) : leBytes l.length (leNat l) = l := by
  induction l with
  | nil => rfl
  | cons b l ih =>
    have hb : (b.toNat + 256 * leNat l) / 256 = leNat l := by have := b.isLt; omega
    have hb' : BitVec.ofNat 8 (b.toNat + 256 * leNat l) = b := by
      apply BitVec.eq_of_toNat_eq; simp only [BitVec.toNat_ofNat]; have := b.isLt; omega
    simp [leBytes, leNat, hb, hb', ih]

theorem leNat_lt (l : List Byte) : leNat l < 256 ^ l.length := by
  induction l with
  | nil => simp [leNat]
  | cons b l ih =>
    have := b.isLt
    simp only [leNat, List.length_cons, Nat.pow_succ]
    omega

/-- The number that n bytes of memory make has 8 n bits. -/
theorem leNat_read_lt (m : Memory) (a n : Nat) : leNat (m.read a n) < 2 ^ (8 * n) := by
  have := leNat_lt (m.read a n)
  rwa [m.length_read, show (256 : Nat) = 2 ^ 8 from rfl, ← Nat.pow_mul] at this

/-- The upper bytes of what is read. -/
theorem leNat_read_div (m : Memory) (a k n : Nat) : leNat (m.read a (k + n)) / 256 ^ k = leNat (m.read (a + k) n) := by
  induction k generalizing a with
  | zero => simp
  | succ k ih =>
    have hb := (m.byte a).isLt
    rw [show k + 1 + n = k + n + 1 by omega, Memory.read, leNat, Nat.pow_succ', ← Nat.div_div_eq_div_mul,
      show (BitVec.toNat (m.byte a) + 256 * leNat (m.read (a + 1) (k + n))) / 256 = leNat (m.read (a + 1) (k + n)) by omega, ih,
      show a + 1 + k = a + (k + 1) by omega]

/-- The lower bytes of what is read. -/
theorem leNat_read_mod (m : Memory) (a n k : Nat) : leNat (m.read a (n + k)) % 256 ^ n = leNat (m.read a n) := by
  induction n generalizing a with
  | zero => simp [Memory.read, leNat, Nat.mod_one]
  | succ n ih =>
    have hb := (m.byte a).isLt
    rw [show n + 1 + k = n + k + 1 by omega, Memory.read, Memory.read, leNat, leNat, Nat.pow_succ', Nat.mod_mul, ← ih (a + 1),
      show (BitVec.toNat (m.byte a) + 256 * leNat (m.read (a + 1) (n + k))) / 256 = leNat (m.read (a + 1) (n + k)) by omega]
    omega

/-- A word inside a wider one. -/
theorem leNat_read_sub (m : Memory) (a b n k : Nat) (hab : a ≤ b) (h : b - a + n ≤ k) :
    leNat (m.read a k) / 2 ^ (8 * (b - a)) % 2 ^ (8 * n) = leNat (m.read b n) := by
  have hd := leNat_read_div m a (b - a) (n + (k - (b - a + n)))
  rw [show b - a + (n + (k - (b - a + n))) = k by omega, show a + (b - a) = b by omega] at hd
  have h256 : ∀ j, 2 ^ (8 * j) = 256 ^ j := fun j => by rw [Nat.pow_mul]
  rw [h256, h256, hd, leNat_read_mod]

/-- A pattern's number read as two's complement (03 R54). -/
theorem signExt_toNat {w : Nat} (h : 0 < w) (x : BitVec w) : signExt w x.toNat = x.toInt := by
  have hp : 2 ^ w = 2 * 2 ^ (w - 1) := by rw [← Nat.pow_succ', Nat.succ_eq_add_one, Nat.sub_add_cancel h]
  have hx := x.isLt
  rw [signExt, Nat.mod_eq_of_lt hx, BitVec.toInt_eq_toNat_cond]
  by_cases hs : x.toNat < 2 ^ (w - 1)
  · rw [if_pos hs, if_pos (by omega)]
  · rw [if_neg hs, if_neg (by omega)]; simp

/-- The new memory value of an integer atomic is its operation's on patterns. -/
theorem amoValue_eq {w : Nat} (hw : 0 < w) (op : Nat) (m v c : BitVec w) :
    amoValue op w m.toNat v.toNat c.toNat = (atomicResult op m v c).toNat := by
  unfold amoValue atomicResult
  simp only [signExt_toNat hw]
  split
  · simp [BitVec.toNat_add]
  · simp only [BitVec.slt_eq_decide, decide_eq_true_eq]; split <;> rfl
  · simp only [BitVec.slt_eq_decide, decide_eq_true_eq]; split <;> rfl
  · simp only [BitVec.ult_eq_decide, decide_eq_true_eq]; split <;> omega
  · simp only [BitVec.ult_eq_decide, decide_eq_true_eq]; split <;> omega
  · rfl
  · rfl
  · rfl
  · rfl
  · simp only [BitVec.toNat_inj, apply_ite BitVec.toNat]


/-! ## Accesses to good unmarked sectors of a page without ENC (13 R332; 04 R93) -/

/-- n bytes from a physical address are a word, aligned to its width (05 R133). -/
def WordAt (pa n : Nat) : Prop := (n = 4 ∨ n = 8) ∧ pa % n = 0

/-- A word lies in one sector. -/
theorem WordAt.sectorsOf {pa n : Nat} (h : WordAt pa n) : sectorsOf pa n = [pa / 32] := by
  obtain ⟨hn, hpa⟩ := h
  have h0 : n ≠ 0 := by omega
  have hs : (pa + n - 1) / 32 = pa / 32 := by rcases hn with rfl | rfl <;> omega
  simp [Machine.sectorsOf, h0, hs]

/-- All of a word's bytes go to its sector. -/
theorem WordAt.sliceFor {pa : Nat} {bytes : List Byte} (h : WordAt pa bytes.length) : sliceFor pa bytes (pa / 32) = (pa, bytes) := by
  obtain ⟨hn, hpa⟩ := h
  have hlo : max pa (32 * (pa / 32)) = pa := by omega
  have hhi : min (pa + bytes.length) (32 * (pa / 32) + 32) = pa + bytes.length := by
    rcases hn with hn | hn <;> rw [hn] at hpa ⊢ <;> omega
  simp [Machine.sliceFor, hlo, hhi]

/-- The word lies on a line that is not encrypted, in a sector without error and mark. -/
def State.Plain (s : State) (pa : Nat) : Prop :=
  s.lineTag (pa / 64) = 0 ∧ s.ue.contains (pa / 32) = false ∧ s.physMark (pa / 32) = none

/-- What the errors, marks and tags of device memory's sectors hang on. -/
theorem State.Plain.congr {s t : State} {pa : Nat} (h : s.Plain pa) (hue : t.ue = s.ue) (hmarks : t.marks = s.marks)
    (htag : t.lineTag (pa / 64) = s.lineTag (pa / 64)) : t.Plain pa := by
  obtain ⟨h1, h2, h3⟩ := h
  exact ⟨htag.trans h1, hue ▸ h2, (congrArg (Tab.get? · (pa / 32)) hmarks).trans h3⟩

theorem State.cipherLine_of_lineTag {s : State} {ln : Nat} (h : s.lineTag ln = 0) : s.cipherLine ln = none := by
  unfold State.lineTag at h
  unfold State.cipherLine
  cases ht : Tab.get? s.encTag ln with
  | none => rfl
  | some t => rw [ht] at h; subst h; rfl

/-- A read through a page without ENC of a line that is not encrypted. -/
theorem State.readPhys_of_lineTag {s : State} {pa : Nat} (n : Nat) (h : s.lineTag (pa / 64) = 0) :
    s.readPhys false pa n = s.mem.read pa n := by
  simp [State.readPhys, s.cipherLine_of_lineTag h]

/-- Corrections count, and make sectors good again. -/
theorem State.correct_eq (s : State) (secs : List Nat) : ∃ ce h, s.correct secs = { s with ce := ce, hub := h } := by
  unfold State.correct
  dsimp only
  split
  · exact ⟨s.ce, s.hub, rfl⟩
  · exact ⟨_, _, rfl⟩

section
variable {s : State} {tr : Trans} {pa : Nat} (t : Taker) (ctx : Nat)

/-- An access to a word of a sector without error consumes nothing but what the code corrects. -/
theorem State.consume_plain {n : Nat} (henc : tr.enc = false) (hw : WordAt pa n) (hp : s.Plain pa) :
    s.consume t tr ctx pa n = s.correct [pa / 32] := by
  obtain ⟨ce, h, hc⟩ := s.correct_eq [pa / 32]
  have hue : (s.correct [pa / 32]).ue.contains (pa / 32) = false := by rw [hc]; exact hp.2.1
  simp only [State.consume, henc, Bool.false_and, Bool.false_eq_true, if_false, hw.sectorsOf, List.foldl_cons, List.foldl_nil, hue]

/-- A word written to such a sector changes memory, and what the code corrects. -/
theorem State.writePhys_plain {bytes : List Byte} (henc : tr.enc = false) (hw : WordAt pa bytes.length) (hp : s.Plain pa) :
    ∃ ce h, s.writePhys t tr ctx pa bytes = { s with mem := s.mem.writeAll pa bytes, ce := ce, hub := h } := by
  obtain ⟨ce, h, hc⟩ := s.correct_eq [pa / 32]
  refine ⟨ce, h, ?_⟩
  have h32 : bytes.length ≠ 32 := by rcases hw.1 with h | h <;> omega
  have htag : ({ s with ce := ce, hub := h } : State).lineTag (pa / 64) = 0 := hp.1
  have hmark : ({ s with ce := ce, hub := h } : State).physMark (pa / 32) = none := hp.2.2
  simp only [State.writePhys, henc, Bool.false_and, Bool.false_eq_true, if_false, hw.sectorsOf, List.foldl_cons, List.foldl_nil,
    hw.sliceFor, h32, s.consume_plain t ctx henc hw hp, hc, List.all_cons, List.all_nil, hmark, Option.isSome_none, Bool.and_false,
    State.decipherLine, State.cipherLine_of_lineTag htag, State.writeSectors]
  rw [if_pos]
  exact hp.1

/-- The same at a line queue, where queues note it. -/
theorem State.performWrite_plain {bytes : List Byte} (henc : tr.enc = false) (hw : WordAt pa bytes.length) (hp : s.Plain pa) :
    ∃ ce h q, s.performWrite t tr ctx pa bytes = { s with mem := s.mem.writeAll pa bytes, ce := ce, hub := h, queues := q } := by
  obtain ⟨ce, h, hwr⟩ := s.writePhys_plain t ctx henc hw hp
  exact ⟨ce, h, _, by rw [State.performWrite, hwr]; rfl⟩

end


/-! ## The head leaves its line queue -/

/-- A key set to another value than the unlisted one reads as that, whether or not the table is in canonical form. -/
theorem Tab.get_put_of_ne {α : Type} [DecidableEq α] (d : α) (t : Tab α) (i : Nat) (v : α) (h : v ≠ d) : Tab.get d (Tab.put d t i v) i = v := by
  rw [Tab.put, if_neg h, Tab.get_set_self]

/-- A group that is left in another state than that of reset reads as it was left. -/
theorem State.pan_modPan_of_ne (s : State) (g : Nat) (f : Pan → Pan) (h : f (s.pan g) ≠ Pan.reset) : (s.modPan g f).pan g = f (s.pan g) :=
  Tab.get_put_of_ne Pan.reset s.pans g _ h

/-- The state in which the head of a line queue is performed: it has left the queue, and its group had a request. -/
def State.popped (s : State) (ln : Nat) (rest : List LEntry) (g : Nat) : State :=
  ({ s with lines := Tab.put [] s.lines ln rest } : State).modPan g fun p => { p with touched := s.hub.time }

/-- A group that is ACTIVE is listed, and reads as it was left. -/
theorem State.pan_popped (s : State) (ln : Nat) (rest : List LEntry) (g j : Nat) (h : (s.pan g).st = .active) :
    (s.popped ln rest g).pan j = if j = g then { s.pan g with touched := s.hub.time } else s.pan j := by
  by_cases hj : j = g
  · subst hj
    rw [if_pos rfl]
    refine State.pan_modPan_of_ne _ j _ fun hr => ?_
    have hst : (s.pan j).st = .deep := congrArg Pan.st hr
    rw [h] at hst
    exact absurd hst (by decide)
  · rw [if_neg hj]
    exact Tab.get_put_ne Pan.reset s.pans g j _ hj

theorem State.pan_popped_alloc (s : State) (ln : Nat) (rest : List LEntry) (g j : Nat) (h : (s.pan g).st = .active) :
    ((s.popped ln rest g).pan j).alloc = (s.pan j).alloc := by
  rw [s.pan_popped ln rest g j h]
  split
  · next hj => rw [hj]
  · rfl

theorem State.lineTag_popped (s : State) (ln : Nat) (rest : List LEntry) (g line : Nat) (h : (s.pan g).st = .active) :
    (s.popped ln rest g).lineTag line = s.lineTag line := by
  have henc : ((s.popped ln rest g).pan (groupOf (64 * line))).enc = (s.pan (groupOf (64 * line))).enc := by
    rw [s.pan_popped ln rest g _ h]
    split
    · next hj => rw [hj]
    · rfl
  simp only [State.lineTag, henc]
  rfl

theorem State.Plain.popped {s : State} {pa : Nat} (hp : s.Plain pa) (ln : Nat) (rest : List LEntry) {g : Nat} (h : (s.pan g).st = .active) :
    (s.popped ln rest g).Plain pa :=
  hp.congr rfl rfl (s.lineTag_popped ln rest g _ h)

/-- The word of a port entry. -/
theorem PItem.wordAt {i : PItem} {pa : Nat} (h : pa % i.len = 0) : WordAt pa i.len := by
  refine ⟨?_, h⟩
  unfold PItem.len
  split <;> simp

theorem Part.wordAt {p : Part} {pa : Nat} (h : pa % p.len = 0) : WordAt pa p.len := by
  refine ⟨?_, h⟩
  unfold Part.len
  split <;> simp

section
variable {s : State} {ln c : Nat} {x : LEntry} {rest : List LEntry} {i : PItem} (h : s.readyToPerform ln c x rest i)
include h

theorem State.readyToPerform.word : WordAt x.pa i.len := by
  obtain ⟨-, -, -, -, -, -, -, hpa, -⟩ := h
  exact PItem.wordAt hpa

theorem State.readyToPerform.plain : (s.popped ln rest (groupOf x.pa)).Plain x.pa := by
  have hw := h.word
  obtain ⟨-, -, hst, -, -, -, hln, -, -, -, htag, hgood⟩ := h
  have hsec := hgood (x.pa / 32) (by simp [hw.sectorsOf])
  exact State.Plain.popped ⟨hln ▸ htag, hsec⟩ ln rest hst

/-- LINE_PERFORM of a port's entry performs the port's access. -/
theorem State.readyToPerform.exec :
    exec (.linePerform ln) s = .next ((s.popped ln rest (groupOf x.pa)).performItem c i x.tr) := by
  obtain ⟨hline, hg, hst, hinit, hagent, hfind, -⟩ := h
  have hfind' : ((s.popped ln rest (groupOf x.pa)).core c).port.find? (fun y => y.seq == i.seq) = some i := hfind
  rw [State.popped] at hfind' ⊢
  show execLinePerform ln s = _
  simp only [execLinePerform, hline, if_neg (Nat.not_le.mpr hg), hst, hinit, bne_self_eq_false, Bool.or_self, Bool.false_eq_true,
    if_false, hagent, hfind']

/-- The access stands in its port. -/
theorem State.readyToPerform.mem_port : i ∈ (s.core c).port := by
  obtain ⟨-, -, -, -, -, hfind, -⟩ := h
  exact List.mem_of_find?_eq_some hfind

end

/-! ## What a load meets in the store buffer -/

section
variable {s t : State} (hk : t.kerns = s.kerns) (hc : t.cores = s.cores) (htlb : t.tlb = s.tlb)
  (ha : ∀ g, (t.pan g).alloc = (s.pan g).alloc)
include htlb ha

theorem State.cached_congr (cluster ctx va : Nat) (write : Bool) : t.cached cluster ctx va write = s.cached cluster ctx va write := by
  simp only [State.cached, htlb, ha]

include hk

theorem State.itemTrans_congr (c : Nat) (x : PItem) : t.itemTrans c x = s.itemTrans c x := by
  simp only [State.itemTrans, ha, State.cached_congr htlb ha, State.kern, State.kern?, hk]

include hc

theorem State.older_congr (c : Nat) (x : PItem) (tr : Trans) : t.older c x tr = s.older c x tr := by
  simp only [State.older, State.itemTrans_congr hk htlb ha, State.core, hc]

end

/-! ## Accesses in their port -/

/-- A core that has something in its port reads as it was left. -/
theorem State.core_modCore_of_port (s : State) (c : Nat) (f : Core → Core) (h : (f (s.core c)).port ≠ []) :
    (s.modCore c f).core c = f (s.core c) := by
  have hne : f (s.core c) ≠ Core.idle := fun hi => h (by rw [hi]; rfl)
  exact Tab.get_put_of_ne Core.idle s.cores c _ hne

/-- Fences that have done their work leave; accesses stay. -/
theorem mem_dropFences {x : PItem} (hx : x.op.isFence = false) : ∀ (l : List PItem) (e : Bool), x ∈ l → x ∈ dropFences e l
  | y :: l, e, h => by
    simp only [dropFences]
    rcases List.mem_cons.mp h with rfl | h
    · simp [hx]
    · have := mem_dropFences hx l
      split
      · split
        · exact List.mem_cons_of_mem _ (this _ h)
        · exact this _ h
      · exact List.mem_cons_of_mem _ (this _ h)

/-- An access of a core stands in its port. -/
def State.Ported (s : State) (c seq : Nat) : Prop := ∃ y ∈ (s.core c).port, y.seq = seq ∧ y.op.isFence = false

/-- A change of one core that leaves its accesses in the port leaves them. -/
theorem State.Ported.modCore {s : State} {c seq : Nat} (h : s.Ported c seq) (j : Nat) (f : Core → Core)
    (hf : ∀ x : Core, ∀ y ∈ x.port, ∃ z ∈ (f x).port, z.seq = y.seq ∧ z.op = y.op) : (s.modCore j f).Ported c seq := by
  obtain ⟨y, hy, hseq, hop⟩ := h
  by_cases hj : c = j
  · subst hj
    obtain ⟨z, hz, hzseq, hzop⟩ := hf _ y hy
    refine ⟨z, ?_, hzseq.trans hseq, by rw [hzop, hop]⟩
    rwa [s.core_modCore_of_port c f (List.ne_nil_of_mem hz)]
  · exact ⟨y, by rwa [s.core_modCore_ne j c f hj], hseq, hop⟩

/-- An access that is performed stands so in its port. -/
theorem State.Ported.performed {s : State} {c seq : Nat} (h : s.Ported c seq) (r : Option (Word × Option Origin)) :
    ∃ y ∈ (((s.modItem c seq fun i => { i with st := .performed, result := r }).settlePort c).core c).port,
      y.seq = seq ∧ y.st = .performed ∧ y.result = r := by
  obtain ⟨y, hy, hseq, hop⟩ := h
  let z : PItem := { y with st := .performed, result := r }
  have hz : z ∈ ((s.modItem c seq fun i => { i with st := .performed, result := r }).core c).port := by
    have hmem : z ∈ (s.core c).port.map fun i => if i.seq = seq then { i with st := .performed, result := r } else i :=
      List.mem_map.mpr ⟨y, hy, by rw [if_pos hseq]⟩
    rwa [State.modItem, s.core_modCore_of_port c _ (List.ne_nil_of_mem hmem)]
  have hz' := mem_dropFences (x := z) hop _ false hz
  refine ⟨z, ?_, hseq, rfl, rfl⟩
  rwa [State.settlePort, State.core_modCore_of_port _ c _ (List.ne_nil_of_mem hz')]

theorem State.readyToPerform.ported {s : State} {ln c : Nat} {x : LEntry} {rest : List LEntry} {i : PItem}
    (h : s.readyToPerform ln c x rest i) (hop : i.op.isFence = false) : s.Ported c i.seq :=
  ⟨i, h.mem_port, rfl, hop⟩


/-! ## Loads at the head of their line queue (05 R134) -/

/-- A load that meets no held entry returns the bytes of memory. -/
theorem State.performLoad_plain {s : State} {c : Nat} {i : PItem} {tr : Trans} (henc : tr.enc = false) (hw : WordAt tr.pa i.len)
    (hp : s.Plain tr.pa) (hheld : tr.kind = .uo ∨ ∀ q ∈ s.older c i tr, q.1.held = false) :
    ∃ ce h, s.performLoad c i tr = ({ s with ce := ce, hub := h }, BitVec.ofNat 64 (leNat (s.mem.read tr.pa i.len)), none) := by
  obtain ⟨ce, h, hc⟩ := s.correct_eq [tr.pa / 32]
  refine ⟨ce, h, ?_⟩
  have hnone : (if tr.kind == .uo then [] else (({ s with ce := ce, hub := h } : State).older c i tr).filter fun q => q.1.held) = [] := by
    rcases hheld with hk | hq
    · simp [hk]
    · rw [State.older_congr (s := s) (t := { s with ce := ce, hub := h }) rfl rfl rfl fun _ => rfl, List.filter_eq_nil_iff.mpr fun q hq' => by simp [hq q hq'], ite_self]
  have hline : ({ s with ce := ce, hub := h } : State).lineTag (tr.pa / 8 * 8 / 64) = 0 := by
    rw [show tr.pa / 8 * 8 / 64 = tr.pa / 64 by omega]; exact hp.1
  have hmark : ({ s with ce := ce, hub := h } : State).physMark (tr.pa / 32) = none := hp.2.2
  have hin : tr.pa - tr.pa / 8 * 8 + i.len ≤ 8 := by
    obtain ⟨hn | hn, hpa⟩ := hw <;> rw [hn] at hpa ⊢ <;> omega
  simp only [State.performLoad, s.consume_plain _ _ henc hw hp, hc, hnone, List.foldl_nil, henc, State.readPhys_of_lineTag 8 hline, hmark,
    leNat_read_sub s.mem _ _ _ _ (Nat.div_mul_le_self tr.pa 8) hin]
  rfl

/-! ## Stores at the head of their line queue (05 R135; 13 R346) -/

/-- The store of a part goes to memory as its bytes. -/
def Part.Good (s : State) (pa : Nat) (p : Part) : Prop := (p.f = true ∨ p.poison = none) ∧ pa % p.len = 0 ∧ s.Plain pa

/-- The stores of an entry that are good are written, oldest first, and nothing else but what the code corrects and the queues note. -/
theorem State.performStores_plain {s : State} {i : PItem} {tr : Trans} (henc : tr.enc = false)
    (hgood : ∀ p ∈ i.parts, p.Good s (tr.pa + p.va - i.va)) :
    ∃ ce h q, s.performStores i tr = { s with mem := i.stored tr.pa s.mem, ce := ce, hub := h, queues := q } := by
  unfold State.performStores PItem.stored
  generalize i.parts = parts at hgood
  induction parts generalizing s with
  | nil => exact ⟨s.ce, s.hub, s.queues, rfl⟩
  | cons p parts ih =>
    obtain ⟨hpois, hpa, hplain⟩ := hgood p (by simp)
    have hnone : (if p.f then none else p.poison) = none := by rcases hpois with h | h <;> simp [h]
    obtain ⟨ce, h, q, hw⟩ := s.performWrite_plain (bytes := leBytes p.len p.data.toNat) i.taker (s.kern i.kid).ctx henc
      (by rw [length_leBytes]; exact Part.wordAt hpa) hplain
    simp only [List.foldl_cons, hnone, hw]
    obtain ⟨ce', h', q', hrest⟩ := ih (s := { s with
        mem := s.mem.writeAll (tr.pa + p.va - i.va) (leBytes p.len p.data.toNat), ce := ce, hub := h, queues := q }) fun p' hp' => by
      obtain ⟨h1, h2, h3⟩ := hgood p' (by simp [hp'])
      exact ⟨h1, h2, h3.congr rfl rfl rfl⟩
    exact ⟨ce', h', q', hrest⟩

/-- Bytes that no store of an entry covers stay. -/
theorem PItem.byte_stored_outside (i : PItem) (pa : Nat) (m : Memory) (a : Nat)
    (h : ∀ p ∈ i.parts, a < pa + p.va - i.va ∨ pa + p.va - i.va + p.len ≤ a) : (i.stored pa m).byte a = m.byte a := by
  unfold PItem.stored
  generalize i.parts = parts at h
  induction parts generalizing m with
  | nil => rfl
  | cons p parts ih =>
    rw [List.foldl_cons, ih _ fun p' hp' => h p' (by simp [hp']), Memory.byte_writeAll_outside _ _ _ _ (by
      rw [length_leBytes]; exact h p (by simp))]

/-! ## AMO and RED at the head of their line queue (05 R136) -/

section
variable {s : State} {i : PItem} {tr : Trans}

variable (henc : tr.enc = false) (hw : WordAt tr.pa i.len) (hp : s.Plain tr.pa)
include henc hw hp

/-- What an integer AMO or RED does, and what AMO returns. -/
theorem State.performAmo_plain {op : Nat} (hop : op ≠ 1) :
    ∃ ce h, let s1 : State := { s with ce := ce, hub := h }
      let m := leNat (s.mem.read tr.pa i.len)
      let cmp := i.cmp.toNat % 2 ^ (8 * i.len)
      (op = 10 → ∀ o, i.cmpPoison = some o → s.performAmo i tr op = (s1, o.setWidth 64, some o))
      ∧ ((op = 10 → i.cmpPoison = none) →
        (∀ o, i.poison = some o → s.performAmo i tr op = (s1.performMark tr.pa o, wordOf m, none))
        ∧ (i.poison = none → s.performAmo i tr op = (if op = 10 ∧ m ≠ cmp then s1 else
            s1.performWrite i.taker tr (s.kern i.kid).ctx tr.pa
              (leBytes i.len (amoValue op (8 * i.len) m (i.data.toNat % 2 ^ (8 * i.len)) cmp)), wordOf m, none))) := by
  obtain ⟨ce, h, hc⟩ := s.correct_eq [tr.pa / 32]
  refine ⟨ce, h, ?_⟩
  have hline : ({ s with ce := ce, hub := h } : State).lineTag (tr.pa / 64) = 0 := hp.1
  have hmark : ({ s with ce := ce, hub := h } : State).physMark (tr.pa / 32) = none := hp.2.2
  have hold : mergePoison [none, none] = none := rfl
  intro s1 m cmp
  refine ⟨fun h10 o ho => ?tagged, fun hcas => ?plain⟩
  case tagged =>
    simp only [State.performAmo, s.consume_plain _ _ henc hw hp, hc, henc, State.readPhys_of_lineTag i.len hline, hmark, ho, h10,
      Option.isSome_some, and_self, if_true]
    rfl
  case plain =>
    have hno : ¬ (op = 10 ∧ i.cmpPoison.isSome = true) := fun h => by simp [hcas h.1] at h
    refine ⟨fun o ho => ?_, fun ho => ?_⟩
    · simp only [State.performAmo, s.consume_plain _ _ henc hw hp, hc, henc, State.readPhys_of_lineTag i.len hline, hmark, if_neg hop, ho,
        hold, hno, Option.isSome_none, Bool.false_eq_true, if_false]
      rfl
    · simp only [State.performAmo, s.consume_plain _ _ henc hw hp, hc, henc, State.readPhys_of_lineTag i.len hline, hmark, if_neg hop, ho,
        hold, hno, Option.isSome_none, Bool.false_eq_true, if_false]
      split
      · rfl
      · rfl

end


/-! ## The memory that an integer atomic leaves -/

theorem Memory.getD_read (m : Memory) (a n k : Nat) (h : k < n) : (m.read a n).getD k 0 = m.byte (a + k) := by
  induction n generalizing a k with
  | zero => omega
  | succ n ih =>
    cases k with
    | zero => rfl
    | succ k => rw [Memory.read, List.getD_cons_succ, ih (a + 1) k (by omega), show a + 1 + k = a + (k + 1) by omega]

/-- Memory after an integer atomic, which CAS leaves alone where it finds another word than it compares with (05 R136). -/
def Memory.atomic (mem : Memory) (pa n op : Nat) (data cmp : Word) : Memory :=
  if op = 10 ∧ leNat (mem.read pa n) ≠ cmp.toNat % 2 ^ (8 * n) then mem
  else mem.writeAll pa (leBytes n (amoValue op (8 * n) (leNat (mem.read pa n)) (data.toNat % 2 ^ (8 * n)) (cmp.toNat % 2 ^ (8 * n))))

/-- Memory after an integer atomic: the word is the operation's result, and every other byte stays. -/
theorem Memory.byte_atomic (mem : Memory) (pa n op : Nat) (data cmp : Word) (hn : 0 < n) (hwf : mem.wf = true) :
    let w := 8 * n
    let m : BitVec w := BitVec.ofNat w (leNat (mem.read pa n))
    let new := atomicResult op m (data.setWidth w) (cmp.setWidth w)
    let after := mem.atomic pa n op data cmp
    (∀ a, pa ≤ a → a < pa + n → after.byte a = (leBytes n new.toNat).getD (a - pa) 0)
      ∧ ∀ a, (a < pa ∨ pa + n ≤ a) → after.byte a = mem.byte a := by
  intro w m new after
  have hm : m.toNat = leNat (mem.read pa n) := Nat.mod_eq_of_lt (leNat_read_lt mem pa n)
  have hval : amoValue op w (leNat (mem.read pa n)) (data.toNat % 2 ^ w) (cmp.toNat % 2 ^ w) = new.toNat := by
    rw [← hm]
    simpa only [BitVec.toNat_setWidth] using amoValue_eq (by omega) op m (data.setWidth w) (cmp.setWidth w)
  by_cases hmiss : op = 10 ∧ leNat (mem.read pa n) ≠ cmp.toNat % 2 ^ w
  · have hafter : after = mem := if_pos hmiss
    have hnew : leBytes n new.toNat = mem.read pa n := by
      have hval' : new.toNat = leNat (mem.read pa n) := by rw [← hval, hmiss.1]; exact if_neg hmiss.2
      rw [hval']
      simpa only [Memory.length_read] using leBytes_leNat (mem.read pa n)
    rw [hafter, hnew]
    refine ⟨fun a h1 h2 => ?_, fun _ _ => rfl⟩
    rw [Memory.getD_read mem pa n (a - pa) (by omega), Nat.add_sub_cancel' h1]
  · have hafter : after = mem.writeAll pa (leBytes n new.toNat) := (if_neg hmiss).trans (by rw [hval])
    rw [hafter]
    refine ⟨fun a h1 h2 => ?_, fun a ha => Memory.byte_writeAll_outside _ _ _ _ (by rwa [length_leBytes])⟩
    have hlt : a - pa < (leBytes n new.toNat).length := by rw [length_leBytes]; omega
    have := Memory.byte_writeAll_inside mem pa (leBytes n new.toNat) (a - pa) hwf hlt
    rw [Nat.add_sub_cancel' h1] at this
    rw [this, List.getD_eq_getElem?_getD, List.getElem?_eq_getElem hlt, Option.getD_some]

/-- An integer AMO or RED of untagged operands at a good word: memory gets the result, AMO the old word. -/
theorem State.performAmo_integer {s : State} {i : PItem} {tr : Trans} {op : Nat} (henc : tr.enc = false) (hw : WordAt tr.pa i.len)
    (hp : s.Plain tr.pa) (h1 : op ≠ 1) (hv : i.poison = none) (hcas : op = 10 → i.cmpPoison = none) :
    ∃ t : State, t.mem = Memory.atomic s.mem tr.pa i.len op i.data i.cmp ∧ t.lines = s.lines ∧ t.cores = s.cores
      ∧ s.performAmo i tr op = (t, wordOf (leNat (s.mem.read tr.pa i.len)), none) := by
  obtain ⟨ce, hub, -, hplain⟩ := State.performAmo_plain henc hw hp h1
  refine ⟨_, ?_, ?_, ?_, (hplain hcas).2 hv⟩
  all_goals
    by_cases hmiss : op = 10 ∧ leNat (s.mem.read tr.pa i.len) ≠ i.cmp.toNat % 2 ^ (8 * i.len)
    · simp only [Memory.atomic, if_pos hmiss]
    · obtain ⟨ce', hub', q, hwr⟩ := State.performWrite_plain (s := { s with ce := ce, hub := hub })
        (bytes := leBytes i.len (amoValue op (8 * i.len) (leNat (s.mem.read tr.pa i.len)) (i.data.toNat % 2 ^ (8 * i.len))
          (i.cmp.toNat % 2 ^ (8 * i.len)))) i.taker (s.kern i.kid).ctx henc (by rwa [length_leBytes]) hp
      simp only [Memory.atomic, if_neg hmiss, hwr]

/-! ## FADD: origins are taken of the kernel's core and context alone -/

/-- Two states with the same kernels, cores and contexts: what a port's arithmetic reads. -/
structure State.SameCores (s t : State) : Prop where
  kerns : t.kerns = s.kerns
  cores : t.cores = s.cores
  ctxs : t.ctxs = s.ctxs

theorem State.SameCores.trans {s t u : State} (h : s.SameCores t) (h' : t.SameCores u) : s.SameCores u :=
  ⟨h'.kerns.trans h.kerns, h'.cores.trans h.cores, h'.ctxs.trans h.ctxs⟩

theorem State.SameCores.kern {s t : State} (h : s.SameCores t) (k : Nat) : t.kern k = s.kern k := by
  simp only [State.kern, State.kern?, h.kerns]

theorem State.SameCores.core {s t : State} (h : s.SameCores t) (c : Nat) : t.core c = s.core c := by
  simp only [State.core, h.cores]

theorem State.SameCores.modCore {s t : State} (h : s.SameCores t) (c : Nat) (f : Core → Core) : (s.modCore c f).SameCores (t.modCore c f) :=
  ⟨h.kerns, by simp only [State.modCore, h.cores, h.core], h.ctxs⟩

theorem State.SameCores.modItem {s t : State} (h : s.SameCores t) (c seq : Nat) (f : PItem → PItem) :
    (s.modItem c seq f).SameCores (t.modItem c seq f) := h.modCore c _

theorem State.SameCores.modCtx {s t : State} (h : s.SameCores t) (c : Nat) (f : Ctx → Ctx) : (s.modCtx c f).SameCores (t.modCtx c f) :=
  ⟨h.kerns, h.cores, by simp only [State.modCtx, State.context, h.ctxs]⟩

theorem State.SameCores.commitMade {s t : State} (h : s.SameCores t) (k : Nat) (info : OInfo) (m : Made) :
    (s.commitMade k info m).SameCores (t.commitMade k info m) := by
  simp only [State.commitMade, h.kern]
  split
  · exact h.modCtx _ _
  · obtain ⟨hk, hc, hx⟩ := h.modCore (s.kern k).core fun c => c.setResv (s.kern k).ctx ((c.resvOf (s.kern k).ctx).drop 1)
    exact ⟨hk, hc, hx⟩

theorem State.SameCores.foldl_commitMade {s t : State} (h : s.SameCores t) (k : Nat) (info : OInfo) (l : List Made) :
    (l.foldl (fun s m => s.commitMade k info m) s).SameCores (l.foldl (fun s m => s.commitMade k info m) t) := by
  induction l generalizing s t with
  | nil => exact h
  | cons m l ih => exact ih (h.commitMade k info m)

/-- FADD's rounded sum with the arithmetic state that it ends in (05 R136; 04 R94). -/
def State.amoArith (s : State) (x : PItem) (m : FVal) : RVal × Ar :=
  let v : FVal := match x.poison with | some o => .poison o | none => decodeF .f32 (x.data.toNat % 2 ^ 32)
  ((do roundTo .f32 (← fpAdd 0 m v) 0 false) : Arith RVal).run
    { s.arith (s.kern x.kid) with made := x.made.map fun e => ⟨e.1, e.2, 0, false⟩ }

/-- Where the origins of FADD come from. -/
def State.amoInfo (s : State) (x : PItem) : OInfo :=
  ⟨(s.kern x.kid).coordNat, (s.kern x.kid).core, 7, x.loc, false, x.insn, x.opnd, x.va + 2 ^ 51⟩

/-- FADD's sum, the origins that it made taken, and noted by its access. -/
theorem State.amoSum_eq (s : State) (x : PItem) (m : FVal) : s.amoSum x m = ((s.amoArith x m).1,
    (((s.amoArith x m).2.made.drop x.made.length).foldl (fun t y => t.commitMade x.kid (s.amoInfo x) y) s).modItem (s.kern x.kid).core x.seq
      fun i => { i with made := (s.amoArith x m).2.made.foldl (fun t y => Tab.set t y.kind y.idx) i.made }) := rfl

/-- FADD's sum, and the cores that it leaves. -/
theorem State.SameCores.amoSum {s t : State} (h : s.SameCores t) (x : PItem) (m : FVal) :
    (t.amoSum x m).1 = (s.amoSum x m).1 ∧ (s.amoSum x m).2.SameCores (t.amoSum x m).2 := by
  have harith : t.amoArith x m = s.amoArith x m := by
    simp only [State.amoArith, State.arith, h.core, h.kern, State.context, h.ctxs]
  have hinfo : t.amoInfo x = s.amoInfo x := by simp only [State.amoInfo, h.kern]
  rw [State.amoSum_eq, State.amoSum_eq, harith, hinfo, h.kern]
  dsimp only
  exact ⟨rfl, (h.foldl_commitMade _ _ _).modItem _ _ _⟩

/-- Device memory with its marks, errors and tags, the pans and the line queues. -/
def State.phys (s : State) : Memory × Tab Origin × List Nat × Tab Nat × Tab Pan × Tab (List LEntry) :=
  (s.mem, s.marks, s.ue, s.encTag, s.pans, s.lines)

/-- Origins of a port's arithmetic leave device memory alone. -/
theorem State.phys_amoSum (s : State) (x : PItem) (m : FVal) : (s.amoSum x m).2.phys = s.phys := by
  rw [State.amoSum_eq]
  exact foldl_keeps State.phys _ (fun t y => by unfold State.commitMade; dsimp only; split <;> rfl) _ s

theorem State.Plain.of_phys {s t : State} {pa : Nat} (h : s.Plain pa) (ht : t.phys = s.phys) : t.Plain pa := by
  simp only [State.phys, Prod.mk.injEq] at ht
  obtain ⟨-, hmarks, hue, htag, hpans, -⟩ := ht
  exact h.congr hue hmarks (by simp only [State.lineTag, State.pan, htag, hpans])

/-- An index that is taken leaves every access in its port. -/
theorem State.Ported.commitMade {s : State} {c seq : Nat} (h : s.Ported c seq) (k : Nat) (info : OInfo) (m : Made) :
    (s.commitMade k info m).Ported c seq := by
  unfold State.commitMade
  dsimp only
  split
  · exact h
  · exact h.modCore (s.kern k).core (fun c => c.setResv (s.kern k).ctx ((c.resvOf (s.kern k).ctx).drop 1)) fun x y hy => ⟨y, hy, rfl, rfl⟩

/-- So does FADD. -/
theorem State.Ported.amoSum {s : State} {c seq : Nat} (h : s.Ported c seq) (x : PItem) (m : FVal) : (s.amoSum x m).2.Ported c seq := by
  have hmade : ∀ (l : List Made) (t : State) (info : OInfo), t.Ported c seq →
      (l.foldl (fun t y => t.commitMade x.kid info y) t).Ported c seq := by
    intro l
    induction l with
    | nil => exact fun _ _ h => h
    | cons y l ih => exact fun t info h => ih _ info (h.commitMade _ _ _)
  rw [State.amoSum_eq]
  refine (hmade _ s _ h).modCore _ _ fun core y hy => ?_
  refine ⟨_, List.mem_map.mpr ⟨y, hy, rfl⟩, ?_⟩
  split <;> exact ⟨rfl, rfl⟩

/-- FADD at a good word that is not poison (05 R136): memory gets the sum's bits, AMO the old word. -/
theorem State.performAmo_fadd {s : State} {i : PItem} {tr : Trans} (henc : tr.enc = false) (hw : WordAt tr.pa i.len) (hp : s.Plain tr.pa)
    (hlen : i.len = 4) (hnum : poisonOrigin 2 (leNat (s.mem.read tr.pa i.len)) false = none) :
    ∃ t : State, (s.amoAdd i (leNat (s.mem.read tr.pa i.len))).2.SameCores t
      ∧ t.mem = s.mem.writeAll tr.pa (leBytes 4 (s.amoAdd i (leNat (s.mem.read tr.pa i.len))).1) ∧ t.lines = s.lines
      ∧ s.performAmo i tr 1 = (t, wordOf (leNat (s.mem.read tr.pa i.len)), none) := by
  generalize hm : leNat (s.mem.read tr.pa i.len) = m at hnum ⊢
  obtain ⟨ce, h, hc⟩ := s.correct_eq [tr.pa / 32]
  obtain ⟨v, hv, hsame, hvphys⟩ : ∃ v, s.correct [tr.pa / 32] = v ∧ s.SameCores v ∧ v.phys = s.phys := ⟨_, hc, ⟨rfl, rfl, rfl⟩, rfl⟩
  have hplain := hp.of_phys hvphys
  obtain ⟨hsum, hleft⟩ := hsame.amoSum i (decodeF .f32 m)
  have hphys := (v.phys_amoSum i (decodeF .f32 m)).trans hvphys
  obtain ⟨ce', h', q, hwr⟩ := State.performWrite_plain (s := (v.amoSum i (decodeF .f32 m)).2)
    (bytes := leBytes 4 ((v.amoSum i (decodeF .f32 m)).1.toBits .f32)) i.taker (s.kern i.kid).ctx henc
    (by rw [length_leBytes, ← hlen]; exact hw) (hp.of_phys hphys)
  have hmem : (v.amoSum i (decodeF .f32 m)).2.mem = s.mem := congrArg (·.1) hphys
  have hlines : (v.amoSum i (decodeF .f32 m)).2.lines = s.lines := congrArg (·.2.2.2.2.2) hphys
  have hvmem : v.mem = s.mem := congrArg (·.1) hvphys
  have hold : mergePoison [none, none] = none := rfl
  refine ⟨(v.amoSum i (decodeF .f32 m)).2.performWrite i.taker tr (s.kern i.kid).ctx tr.pa
    (leBytes 4 ((v.amoSum i (decodeF .f32 m)).1.toBits .f32)), ?_, ?_, ?_, ?_⟩
  · exact hleft.trans (by rw [hwr]; exact ⟨rfl, rfl, rfl⟩)
  · rw [hwr, hsum, hmem]; rfl
  · rw [hwr, hlines]
  · simp only [State.performAmo, s.consume_plain _ _ henc hw hp, hv, henc, v.readPhys_of_lineTag i.len hplain.1, hvmem, hm, hplain.2.2,
      if_true, hnum, hold]
    rfl


/-! ## A performed AMO stands in its port, a performed RED has left it -/

/-- What a port's atomic leaves, and how it is answered. -/
theorem State.performItem_atomic {s t u : State} {c op : Nat} {i : PItem} {tr : Trans} {r : Word × Option Origin}
    (hop : i.op = .amo op ∨ i.op = .red op) (h : s.performAmo i tr op = (t, r)) (hcores : t.cores = u.cores) (hport : u.Ported c i.seq) :
    let w := s.performItem c i tr
    w.mem = t.mem ∧ w.lines = t.lines ∧ w.marks = t.marks ∧ Answered u w c i op r := by
  have ht : t.Ported c i.seq := by simpa only [State.Ported, State.core, hcores] using hport
  rcases hop with hop | hop
  · simp only [State.performItem, hop, h]
    refine ⟨rfl, rfl, rfl, fun _ => ht.performed (some r), fun hr => ?_⟩
    rw [hop] at hr; cases hr
  · simp only [State.performItem, hop, h]
    refine ⟨rfl, rfl, rfl, fun hr => ?_, fun _ => ?_⟩
    · rw [hop] at hr; cases hr
    · simp only [State.settlePort, State.dropItem, State.modCore, State.core, hcores]

/-- A word of at most 64 bits, as AMO returns it. -/
theorem wordOf_eq_setWidth {n w : Nat} (h : n < 2 ^ w) : wordOf n = (BitVec.ofNat w n).setWidth 64 := by
  apply BitVec.eq_of_toNat_eq
  simp [wordOf, Nat.mod_eq_of_lt h]

/-! ## MLD_DATA_LAND -/

/-- Loaded data is in its register. -/
theorem Kern.landLoad_kid_regs (y : Kern) (i : Nat) (r : Reg) (seq key : Nat) :
    (y.landLoad i r seq key).kid = y.kid ∧ (y.landLoad i r seq key).regs = Tab.put Reg.zero y.regs i r := by
  unfold Kern.landLoad
  dsimp only
  split
  · split
    · exact ⟨rfl, rfl⟩
    · unfold Kern.signature
      split <;> exact ⟨rfl, rfl⟩
  · exact ⟨rfl, rfl⟩

/-! ## The walks of a die (01 R15; 09 R231) -/

theorem mem_insertMiss {m x : Nat × WalkReq} {l : List (Nat × WalkReq)} (h : x ∈ State.misses.insertMiss m l) : x = m ∨ x ∈ l := by
  induction l with
  | nil => exact .inl (List.mem_singleton.mp h)
  | cons e t ih =>
    simp only [State.misses.insertMiss] at h
    split at h
    · exact List.mem_cons.mp h
    · rcases List.mem_cons.mp h with rfl | h
      · exact .inr (by simp)
      · exact (ih h).imp_right (List.mem_cons_of_mem _)

theorem mem_foldl_insertMiss {x : Nat × WalkReq} (l acc : List (Nat × WalkReq))
    (h : x ∈ l.foldl (fun l m => State.misses.insertMiss m l) acc) : x ∈ l ∨ x ∈ acc := by
  induction l generalizing acc with
  | nil => exact .inr h
  | cons m l ih =>
    rcases ih _ h with h | h
    · exact .inl (List.mem_cons_of_mem _ h)
    · exact (mem_insertMiss h).imp_left fun h => by simp [h]

/-- A die's misses are those of its cores. -/
theorem State.die_of_mem_misses {s : State} {die : Nat} {m : Nat × WalkReq} (h : m ∈ s.misses die) : m.2.core / 64 = die := by
  rcases mem_foldl_insertMiss _ _ h with h | h
  · rcases List.mem_append.mp h with h | h
    · rcases List.mem_append.mp h with h | h
      · obtain ⟨c, -, hm⟩ := List.mem_flatMap.mp h
        split at hm
        · cases hm
        · next hc =>
          obtain ⟨x, -, rfl⟩ := List.mem_map.mp hm
          exact Decidable.not_not.mp hc
      · obtain ⟨k, -, hm⟩ := List.mem_filterMap.mp h
        split at hm
        · obtain ⟨⟨hd, -⟩, hm⟩ := Option.ite_none_right_eq_some.mp hm
          cases hm; exact hd
        · cases hm
    · obtain ⟨e, -, hm⟩ := List.mem_filterMap.mp h
      split at hm
      · obtain ⟨⟨hd, -⟩, hm⟩ := Option.ite_none_right_eq_some.mp hm
        cases hm; exact hd
      · cases hm
  · cases h

/-- A die has at most 64 walks. -/
theorem State.length_walks_le (s : State) (d : Nat) (hd : d < 4) : (s.walks.filter fun r => r.core / 64 == d).length ≤ 64 := by
  have hpart : ∀ e : Nat, (((s.misses e).take 64).map (·.2)).filter (fun r => r.core / 64 == d)
      = if e = d then ((s.misses e).take 64).map (·.2) else [] := fun e => by
    have hdie : ∀ r ∈ ((s.misses e).take 64).map (·.2), r.core / 64 = e := fun r hr => by
      obtain ⟨m, hm, rfl⟩ := List.mem_map.mp hr
      exact s.die_of_mem_misses (List.mem_of_mem_take hm)
    split
    · next hed => exact List.filter_eq_self.mpr fun r hr => by simp [hdie r hr, hed]
    · next hed => exact List.filter_eq_nil_iff.mpr fun r hr => by simp [hdie r hr, hed]
  rw [State.walks, List.filter_flatMap]
  simp only [hpart]
  have hrange : List.range 4 = [0, 1, 2, 3] := rfl
  have hlen : (((s.misses d).take 64).map (·.2)).length ≤ 64 := by rw [List.length_map]; exact List.length_take_le 64 _
  simp only [hrange, List.flatMap_cons, List.flatMap_nil]
  rcases (by omega : d = 0 ∨ d = 1 ∨ d = 2 ∨ d = 3) with rfl | rfl | rfl | rfl <;>
    simpa only [Nat.reduceEqDiff, reduceIte, reduceCtorEq, List.append_nil, List.nil_append] using hlen


/-! ## Requests at the pans leave their groups allocated (09 R235, R236) -/

/-- A change of an allocated group that keeps it allocated leaves every group allocated or not as it was. -/
theorem State.alloc_modPan {s : State} {g : Nat} {f : Pan → Pan} (hf : ∀ p, (f p).alloc = p.alloc) (h : (s.pan g).alloc = true) (j : Nat) :
    ((s.modPan g f).pan j).alloc = (s.pan j).alloc := by
  by_cases hj : j = g
  · subst hj
    rw [s.pan_modPan_of_ne j f fun hr => ?_, hf]
    have := hf (s.pan j)
    rw [hr, h] at this
    exact absurd this (by decide)
  · rw [s.pan_modPan_ne g j f hj]

theorem State.alloc_touchPan {s : State} {g : Nat} (h : (s.pan g).alloc = true) (j : Nat) :
    ((s.touchPan g).pan j).alloc = (s.pan j).alloc := by
  have htouch := State.alloc_modPan (f := fun p => { p with touched := s.hub.time }) (fun _ => rfl) h
  refine (State.alloc_modPan (fun p => ?_) ((htouch g).trans h) j).trans (htouch j)
  split <;> rfl

theorem State.alloc_reachGroups {s : State} {l : List Nat} (h : ∀ g ∈ l, (s.pan g).alloc = true) (j : Nat) :
    ((s.reachGroups l).1.pan j).alloc = (s.pan j).alloc := by
  induction l generalizing s with
  | nil => rfl
  | cons g l ih =>
    have htouch := State.alloc_touchPan (h g (by simp))
    simp only [State.reachGroups]
    split
    · exact (ih fun k hk => (htouch k).trans (h k (by simp [hk]))).trans (htouch j)
    · exact htouch j

/-! ## The tables of a walk lie in allocated groups (09 R228-R230) -/

/-- Each level's table, of the size that the level above gives it, holds the entries that the level indexes. -/
def tablesFit : Nat → List Level → Prop
  | _, [] => True
  | size, l :: ls => 8 * 2 ^ l.width ≤ size ∧ size ∣ Config.groupBytes ∧ tablesFit l.next ls

theorem tablesFit_levels : tablesFit (2 ^ 13) levels := by
  refine ⟨by decide, by decide, by decide, by decide, by decide, by decide, by decide, by decide, trivial⟩

/-- A table at a multiple of its size in a group does not leave the group. -/
theorem groupOf_entry {g off size n : Nat} (hoff : off < Config.groupBytes) (hdvd : size ∣ off) (hsize : size ∣ Config.groupBytes) (hn : n < size) :
    groupOf (g * Config.groupBytes + off + n) = g := by
  obtain ⟨a, rfl⟩ := hdvd
  obtain ⟨b, hb⟩ := hsize
  have hab : a < b := Nat.lt_of_mul_lt_mul_left (hb ▸ hoff)
  have hin : size * a + n < Config.groupBytes := by
    calc size * a + n < size * (a + 1) := by rw [Nat.mul_succ]; omega
      _ ≤ size * b := Nat.mul_le_mul_left size hab
      _ = Config.groupBytes := hb.symm
  rw [groupOf, Nat.add_assoc, Nat.mul_comm, Nat.mul_add_div (by decide), Nat.div_eq_of_lt hin, Nat.add_zero]

/-- What an entry that is not bad, and is no leaf, says of the next table (09 R229). -/
theorem next_table_of_not_badEntry {l : Level} {keyed : Bool} {e : Nat} (h : badEntry l keyed e = false) (hleaf : bitsOf e 1 1 ≠ 1) :
    entryOff e < Config.groupBytes ∧ l.next ∣ entryOff e := by
  have hl : (bitsOf e 1 1 == 1) = false := by simpa using hleaf
  simp only [badEntry, hl, Bool.or_eq_false_iff, decide_eq_false_iff_not, Nat.not_le, bne_eq_false_iff_eq, if_false, Bool.false_eq_true] at h
  obtain ⟨⟨-, hoff⟩, -, hnext⟩ := h
  exact ⟨hoff, Nat.dvd_of_mod_eq_zero hnext⟩

/-- A walk reads in allocated groups. -/
theorem State.alloc_of_mem_readsFrom {s : State} {keyed : Bool} {va : Nat} {ls : List Level} :
    ∀ {size g off : Nat}, tablesFit size ls → off < Config.groupBytes → size ∣ off → (s.pan g).alloc = true →
      ∀ pa ∈ s.readsFrom keyed va ls (g * Config.groupBytes + off), (s.pan (groupOf pa)).alloc = true := by
  induction ls with
  | nil => intro _ _ _ _ _ _ _ pa h; cases h
  | cons l ls ih =>
    intro size g off ⟨hfit, hsize, hrest⟩ hoff hdvd hg pa hpa
    have hn : 8 * (va / 2 ^ l.low % 2 ^ l.width) < size := by
      have := Nat.mod_lt (va / 2 ^ l.low) (Nat.two_pow_pos l.width)
      omega
    simp only [State.readsFrom] at hpa
    rcases List.mem_cons.mp hpa with rfl | hpa
    · rwa [groupOf_entry hoff hdvd hsize hn]
    · split at hpa
      · cases hpa
      · next hgo =>
        obtain ⟨-, hbad, hleaf, halloc⟩ := by simpa only [not_or] using hgo
        obtain ⟨hoff', hdvd'⟩ := next_table_of_not_badEntry (by simpa using hbad) hleaf
        exact ih hrest hoff' hdvd' (by simpa using halloc) pa hpa

theorem State.alloc_of_mem_tableGroups {s : State} {ctx va : Nat} : ∀ g ∈ s.tableGroups ctx va, (s.pan g).alloc = true := by
  intro g hg
  simp only [State.tableGroups] at hg
  split at hg
  · cases hg
  · next hroot =>
    obtain ⟨halloc, hoff⟩ : (s.pan (s.context ctx).rootg.toNat).alloc = true ∧ (s.context ctx).rootoff.toNat * 2 ^ 13 < Config.groupBytes := by
      simpa using hroot
    obtain ⟨pa, hpa, rfl⟩ := List.mem_map.mp hg
    exact State.alloc_of_mem_readsFrom tablesFit_levels hoff (Nat.dvd_mul_left _ _) halloc pa hpa

theorem State.alloc_reachTables (s : State) (ctx va j : Nat) : ((s.reachTables ctx va).1.pan j).alloc = (s.pan j).alloc :=
  State.alloc_reachGroups State.alloc_of_mem_tableGroups j

/-- A walk hangs on which groups are allocated, and on no other state of a pan. -/
theorem State.walk_congr_pans {s : State} {ps : Tab Pan} {em : List EMiss}
    (h : ∀ j, (({ s with pans := ps, emiss := em } : State).pan j).alloc = (s.pan j).alloc) (ctx va : Nat) (write : Bool) :
    ({ s with pans := ps, emiss := em } : State).walk ctx va write = s.walk ctx va write := by
  have hfrom : ∀ (keyed : Bool) (ls : List Level) (table : Nat),
      ({ s with pans := ps, emiss := em } : State).walkFrom keyed va write ls table = s.walkFrom keyed va write ls table := by
    intro keyed ls
    induction ls with
    | nil => intro table; rfl
    | cons l ls ih =>
      intro table
      have hword : ∀ pa, ({ s with pans := ps, emiss := em } : State).physWord pa = s.physWord pa := fun _ => rfl
      simp only [State.walkFrom, h, ih, hword]
  have hctx : ({ s with pans := ps, emiss := em } : State).context ctx = s.context ctx := rfl
  simp only [State.walk, h, hfrom, hctx]


/-! ## PAGE_WALK (09 R230-R232; 05 R138) -/

/-- The requests of a walk have reached its tables, and the miss that it ends is over. -/
def State.walked (s : State) (r : WalkReq) : State :=
  { (s.reachTables r.ctx r.va).1 with emiss := s.emiss.filter fun m => !r.isMiss m }

/-- The walk finds, once its reads are performed, what it found before. -/
theorem State.walked_eq (s : State) (r : WalkReq) : ∃ ps, s.walked r = { s with pans := ps, emiss := s.emiss.filter fun m => !r.isMiss m }
    ∧ (s.walked r).walk r.ctx r.va r.write = s.walk r.ctx r.va r.write := by
  obtain ⟨ps, hps⟩ := s.reachTables_eq r.ctx r.va
  have halloc := s.alloc_reachTables r.ctx r.va
  rw [hps] at halloc
  have heq : s.walked r = { s with pans := ps, emiss := s.emiss.filter fun m => !r.isMiss m } := by rw [State.walked, hps]
  exact ⟨ps, heq, heq ▸ State.walk_congr_pans halloc r.ctx r.va r.write⟩

/-- How a walk ends: with a translation for its requester, or with a replayable fault. -/
def State.endWalk (u : State) (r : WalkReq) : State :=
  match u.walk r.ctx r.va r.write with
  | .ok y =>
    match r.seq with
    | some q => (u.cacheFill (r.core / 8) r.ctx y).modItem r.core q fun i => { i with tr := some (y.trans r.va) }
    | none => u.cacheFill (r.core / 8) r.ctx y
  | .error e =>
    match r.engine with
    | some n => u.replayable (.engine r.kid n) r.ctx r.va e
    | none => u.replayable (.port r.core) r.ctx r.va e (r.seq.getD (u.core r.core).pseq)

/-- A translation enters the cluster's cache, and its access has it. -/
theorem State.endWalk_ok {u : State} {r : WalkReq} {y : TlbEntry} (h : u.walk r.ctx r.va r.write = .ok y) :
    (u.endWalk r).mem = u.mem ∧ (u.endWalk r).lines = u.lines ∧ (u.endWalk r).emiss = u.emiss
      ∧ { y with cluster := r.core / 8, ctx := r.ctx } ∈ (u.endWalk r).tlb
      ∧ (∀ q, r.seq = some q → (u.endWalk r).cores = (u.modItem r.core q fun i => { i with tr := some (y.trans r.va) }).cores)
      ∧ (r.seq = none → (u.endWalk r).cores = u.cores) := by
  cases hq : r.seq with
  | none =>
    have heq : u.endWalk r = u.cacheFill (r.core / 8) r.ctx y := by simp only [State.endWalk, h, hq]
    rw [heq]
    exact ⟨rfl, rfl, rfl, List.mem_cons_self .., fun _ hq' => absurd hq' (by simp), fun _ => rfl⟩
  | some q =>
    have heq : u.endWalk r = (u.cacheFill (r.core / 8) r.ctx y).modItem r.core q fun i => { i with tr := some (y.trans r.va) } := by
      simp only [State.endWalk, h, hq]
    rw [heq]
    exact ⟨rfl, rfl, rfl, List.mem_cons_self .., fun q' hq' => Option.some.inj hq' ▸ rfl, fun hq' => absurd hq' (by simp)⟩

theorem State.endWalk_error_engine {u : State} {r : WalkReq} {e n : Nat} (h : u.walk r.ctx r.va r.write = .error e) (hn : r.engine = some n) :
    u.endWalk r = u.replayable (.engine r.kid n) r.ctx r.va e := by
  simp only [State.endWalk, h, hn]

theorem State.endWalk_error_port {u : State} {r : WalkReq} {e : Nat} (h : u.walk r.ctx r.va r.write = .error e) (hn : r.engine = none) :
    u.endWalk r = u.replayable (.port r.core) r.ctx r.va e (r.seq.getD (u.core r.core).pseq) := by
  simp only [State.endWalk, h, hn]

/-- A walk whose tables do not all perform its reads waits. -/
theorem exec_pageWalk_waits {s : State} {j : Nat} {r : WalkReq} (hr : (s.walks.drop j).head? = some r)
    (hgo : (s.reachTables r.ctx r.va).2 = false) : exec (.pageWalk j) s = .next (s.reachTables r.ctx r.va).1 := by
  show execPageWalk j s = _
  simp only [execPageWalk, hr]
  generalize s.reachTables r.ctx r.va = p at hgo
  obtain ⟨v, b⟩ := p
  subst hgo
  rfl

/-- A walk whose tables perform its reads ends. -/
theorem exec_pageWalk_ends {s : State} {j : Nat} {r : WalkReq} (hr : (s.walks.drop j).head? = some r)
    (hgo : (s.reachTables r.ctx r.va).2 = true) : exec (.pageWalk j) s = .next ((s.walked r).endWalk r) := by
  obtain ⟨ps, hps⟩ := s.reachTables_eq r.ctx r.va
  have hreach : s.reachTables r.ctx r.va = ({ s with pans := ps }, true) := Prod.ext hps hgo
  show execPageWalk j s = _
  simp only [execPageWalk, hr, hreach, State.walked, State.endWalk]
  cases ({ s with pans := ps, emiss := s.emiss.filter fun m => !r.isMiss m } : State).walk r.ctx r.va r.write with
  | ok y => cases r.seq <;> rfl
  | error e => cases r.engine <;> rfl

/-! ## LINE_PERFORM of a port's entry -/

/-- A sector that is marked at a line queue. -/
theorem State.performMark_keeps (s : State) (pa : Nat) (o : Origin) : (s.performMark pa o).mem = s.mem.writeAll (32 * (pa / 32)) (markBytes o)
    ∧ (s.performMark pa o).marks = Tab.set s.marks (pa / 32) o ∧ (s.performMark pa o).cores = s.cores := ⟨rfl, rfl, rfl⟩

section
variable {s : State} {ln c : Nat} {x : LEntry} {rest : List LEntry} {i : PItem} (h : s.readyToPerform ln c x rest i)
include h

theorem State.readyToPerform.tr : x.tr.pa = x.pa ∧ x.tr.enc = false := by
  obtain ⟨-, -, -, -, -, -, -, -, hpa, henc, -⟩ := h
  exact ⟨hpa, henc⟩

/-- The address that its translation names is that of the entry. -/
theorem State.readyToPerform.word_plain_tr : WordAt x.tr.pa i.len ∧ (s.popped ln rest (groupOf x.pa)).Plain x.tr.pa := by
  rw [h.tr.1]
  exact ⟨h.word, h.plain⟩

/-- A load returns the bytes of memory. -/
theorem State.readyToPerform.load (hop : i.op = .load) (hheld : x.tr.kind = .uo ∨ ∀ q ∈ s.older c i x.tr, q.1.held = false) :
    Leads (.linePerform ln) s fun t => t.mem = s.mem ∧ t.lines = Tab.put [] s.lines ln rest
      ∧ ∃ y ∈ (t.core c).port, y.seq = i.seq ∧ y.st = .performed
        ∧ y.result = some (BitVec.ofNat 64 (leNat (s.mem.read x.pa i.len)), none) := by
  have hexec := h.exec
  obtain ⟨hword, hplain⟩ := h.word_plain_tr
  have hported : (s.popped ln rest (groupOf x.pa)).Ported c i.seq := h.ported (by rw [hop]; rfl)
  obtain ⟨htr, henc⟩ := h.tr
  obtain ⟨-, -, hst, -⟩ := h
  have holder := State.older_congr (s := s) (t := s.popped ln rest (groupOf x.pa)) rfl rfl rfl
    (fun g => s.pan_popped_alloc ln rest (groupOf x.pa) g hst) c i x.tr
  obtain ⟨ce, hub, hl⟩ := (s.popped ln rest (groupOf x.pa)).performLoad_plain (c := c) (i := i) henc hword hplain
    (by rwa [holder])
  refine ⟨_, hexec, ?_⟩
  rw [State.performItem, hop]
  dsimp only
  rw [hl, htr]
  exact ⟨rfl, rfl, hported.performed _⟩

/-- The stores of an entry are written in order, and no other byte changes. -/
theorem State.readyToPerform.store (hop : i.op = .store)
    (hparts : ∀ p ∈ i.parts, (p.f = true ∨ p.poison = none) ∧ (x.pa + p.va - i.va) / 64 = ln ∧ (x.pa + p.va - i.va) % p.len = 0
      ∧ ∀ n ∈ sectorsOf (x.pa + p.va - i.va) p.len, s.ue.contains n = false ∧ s.physMark n = none) :
    Leads (.linePerform ln) s fun t => t.lines = Tab.put [] s.lines ln rest ∧ t.mem = i.stored x.pa s.mem
      ∧ ∀ a, (∀ p ∈ i.parts, a < x.pa + p.va - i.va ∨ x.pa + p.va - i.va + p.len ≤ a) → t.mem.byte a = s.mem.byte a := by
  have hexec := h.exec
  obtain ⟨htr, henc⟩ := h.tr
  obtain ⟨-, -, hst, -, -, -, -, -, -, -, htag, -⟩ := h
  have hgood : ∀ p ∈ i.parts, p.Good (s.popped ln rest (groupOf x.pa)) (x.tr.pa + p.va - i.va) := fun p hp => by
    obtain ⟨hpois, hline, hpa, hsecs⟩ := hparts p hp
    have hsec := hsecs ((x.pa + p.va - i.va) / 32) (by simp [(Part.wordAt hpa).sectorsOf])
    rw [htr]
    exact ⟨hpois, hpa, State.Plain.popped ⟨by rw [hline, htag], hsec⟩ ln rest hst⟩
  obtain ⟨ce, hub, q, hs⟩ := State.performStores_plain henc hgood
  refine ⟨_, hexec, ?_⟩
  rw [State.performItem, hop]
  dsimp only
  rw [hs, htr]
  exact ⟨rfl, rfl, fun a ha => i.byte_stored_outside x.pa s.mem a ha⟩

/-- What an atomic of a port leaves at its line queue is what `performAmo` leaves. -/
theorem State.readyToPerform.atomic {op : Nat} {u t : State} {r : Word × Option Origin} (hop : i.op = .amo op ∨ i.op = .red op)
    (hamo : (s.popped ln rest (groupOf x.pa)).performAmo i x.tr op = (t, r)) (hcores : t.cores = u.cores) (hport : u.Ported c i.seq) :
    Leads (.linePerform ln) s fun w => w.mem = t.mem ∧ w.lines = t.lines ∧ w.marks = t.marks ∧ Answered u w c i op r :=
  ⟨_, h.exec, State.performItem_atomic hop hamo hcores hport⟩

variable {op : Nat} (hop : i.op = .amo op ∨ i.op = .red op)
include hop

theorem State.readyToPerform.ported_atomic : s.Ported c i.seq := h.ported (by rcases hop with h | h <;> rw [h] <;> rfl)

/-- An integer AMO or RED with operands that are numbers (05 R136). -/
theorem State.readyToPerform.atomic_integer (h1 : op ≠ 1) (hinv : s.Inv) (hv : i.poison = none) (hcas : op = 10 → i.cmpPoison = none) :
    let w := 8 * i.len
    let m : BitVec w := BitVec.ofNat w (leNat (s.mem.read x.pa i.len))
    Leads (.linePerform ln) s fun t => t.lines = Tab.put [] s.lines ln rest
      ∧ (∀ a, x.pa ≤ a → a < x.pa + i.len →
          t.mem.byte a = (leBytes i.len (atomicResult op m (i.data.setWidth w) (i.cmp.setWidth w)).toNat).getD (a - x.pa) 0)
      ∧ (∀ a, (a < x.pa ∨ x.pa + i.len ≤ a) → t.mem.byte a = s.mem.byte a) ∧ Answered s t c i op (m.setWidth 64, none) := by
  intro w m
  obtain ⟨htr, henc⟩ := h.tr
  obtain ⟨hword, hplain⟩ := h.word_plain_tr
  obtain ⟨t, hmem, hlines, hcores, hamo⟩ := State.performAmo_integer (i := i) henc hword hplain h1 hv hcas
  rw [htr] at hmem hamo
  obtain ⟨hbytes, hframe⟩ := Memory.byte_atomic s.mem x.pa i.len op i.data i.cmp (by have := h.word.1; omega) hinv
  obtain ⟨w, hexec, hwmem, hwlines, -, hans⟩ := h.atomic hop hamo hcores (h.ported_atomic hop)
  rw [wordOf_eq_setWidth (leNat_read_lt _ _ _)] at hans
  have hw : w.mem = Memory.atomic s.mem x.pa i.len op i.data i.cmp := hwmem.trans hmem
  exact ⟨w, hexec, hwlines.trans hlines, hw ▸ hbytes, hw ▸ hframe, hans⟩

/-- With a tagged operand the sector is marked, and AMO returns the old word. -/
theorem State.readyToPerform.atomic_tagged (h1 : op ≠ 1) (hcas : op = 10 → i.cmpPoison = none) {o : Origin} (hv : i.poison = some o) :
    Leads (.linePerform ln) s fun t => t.physMark (x.pa / 32) = some o ∧ (∀ a, a / 32 ≠ x.pa / 32 → t.mem.byte a = s.mem.byte a)
      ∧ Answered s t c i op ((BitVec.ofNat (8 * i.len) (leNat (s.mem.read x.pa i.len))).setWidth 64, none) := by
  obtain ⟨htr, henc⟩ := h.tr
  obtain ⟨hword, hplain⟩ := h.word_plain_tr
  obtain ⟨ce, hub, -, huntagged⟩ := State.performAmo_plain (i := i) henc hword hplain h1
  have hamo := (huntagged hcas).1 o hv
  rw [htr] at hamo
  obtain ⟨hmem, hmarks, hcores⟩ := State.performMark_keeps { s.popped ln rest (groupOf x.pa) with ce := ce, hub := hub } x.pa o
  obtain ⟨w, hexec, hwmem, -, hwmarks, hans⟩ := h.atomic hop hamo hcores (h.ported_atomic hop)
  rw [← wordOf_eq_setWidth (leNat_read_lt _ _ _)]
  refine ⟨w, hexec, ?_, fun a ha => ?_, hans⟩
  · rw [State.physMark, hwmarks, hmarks, Tab.get?_set_self]
  · rw [hwmem, hmem, Memory.byte_writeAll_outside _ _ _ _ (by rw [markBytes, length_leBytes]; omega)]
    rfl

/-- CAS with a tagged compare value writes nothing and returns the origin (05 R136). -/
theorem State.readyToPerform.atomic_taggedCompare (h10 : op = 10) {o : Origin} (ho : i.cmpPoison = some o) :
    Leads (.linePerform ln) s fun t => t.mem = s.mem ∧ Answered s t c i op (o.setWidth 64, some o) := by
  obtain ⟨htr, henc⟩ := h.tr
  obtain ⟨hword, hplain⟩ := h.word_plain_tr
  obtain ⟨ce, hub, htagged, -⟩ := State.performAmo_plain (i := i) (op := op) henc hword hplain (by omega)
  obtain ⟨w, hexec, hwmem, -, -, hans⟩ := h.atomic hop (htagged h10 o ho) rfl (h.ported_atomic hop)
  exact ⟨w, hexec, hwmem, hans⟩

/-- FADD on a word that is not poison writes the sum's bits (05 R136). -/
theorem State.readyToPerform.atomic_fadd (h1 : op = 1)
    (hnum : poisonOrigin 2 (BitVec.ofNat (8 * i.len) (leNat (s.mem.read x.pa i.len))).toNat false = none) (hlen : i.len = 4) :
    let m : BitVec (8 * i.len) := BitVec.ofNat (8 * i.len) (leNat (s.mem.read x.pa i.len))
    Leads (.linePerform ln) s fun t => t.mem = s.mem.writeAll x.pa (leBytes 4 (s.amoAdd i m.toNat).1)
      ∧ Answered (s.amoAdd i m.toNat).2 t c i op (m.setWidth 64, none) := by
  intro m
  obtain ⟨htr, henc⟩ := h.tr
  obtain ⟨hword, hplain⟩ := h.word_plain_tr
  have hm : m.toNat = leNat (s.mem.read x.pa i.len) := Nat.mod_eq_of_lt (leNat_read_lt _ _ _)
  rw [hm] at hnum ⊢
  obtain ⟨t, hsame, hmem, -, hamo⟩ := State.performAmo_fadd (i := i) henc hword hplain hlen (by rw [htr]; exact hnum)
  rw [htr] at hsame hmem hamo
  have hpop : s.SameCores (s.popped ln rest (groupOf x.pa)) := ⟨rfl, rfl, rfl⟩
  obtain ⟨hsum, hleft⟩ := hpop.amoSum i (decodeF .f32 (leNat (s.mem.read x.pa i.len)))
  obtain ⟨w, hexec, hwmem, -, -, hans⟩ := h.atomic hop (h1 ▸ hamo) (hleft.trans hsame).cores ((h.ported_atomic hop).amoSum _ _)
  rw [wordOf_eq_setWidth (leNat_read_lt _ _ _)] at hans
  have hbits : ((s.popped ln rest (groupOf x.pa)).amoAdd i (leNat (s.mem.read x.pa i.len))).1
      = (s.amoAdd i (leNat (s.mem.read x.pa i.len))).1 := by simp only [State.amoAdd, hsum]
  refine ⟨w, hexec, hwmem.trans (hmem.trans ?_), hans⟩
  exact congrArg (fun n => s.mem.writeAll x.pa (leBytes 4 n)) hbits

end

/-- Settles O38: each access at its head by what its sort does to a good word, walks by the reads that they make. -/
theorem linesPerformTheirHead : Obligations.LinesPerformTheirHead := by
  unfold Obligations.LinesPerformTheirHead
  refine ⟨?nowhere, fun s ln c x rest i h => ⟨h.load, h.store⟩, ?atomics, ?lands, State.length_walks_le, ?walks⟩
  case nowhere =>
    intro s ln x rest hline hg
    show execLinePerform ln s = _
    simp only [execLinePerform, hline, if_pos hg]
  case atomics =>
    exact fun s ln c x rest i op h hop hinv => ⟨fun h1 hv hcas => h.atomic_integer hop h1 hinv hv hcas,
      fun h1 hcas o hv => h.atomic_tagged hop h1 hcas hv, fun h10 o ho => h.atomic_taggedCompare hop h10 ho,
      fun h1 hnum hlen => h.atomic_fadd hop h1 hnum hlen⟩
  case lands =>
    intro s k j n y x v o hk hx hdst hres
    let r : Reg := ⟨v, o.isSome, o.isSome && x.w8, v, false⟩
    have hexec : exec (.mldDataLand k j) s
        = .next (((s.dropItem y.core x.seq).settlePort y.core).modKern k fun z => z.landLoad n r x.seq x.key) := by
      show execMldDataLand k j s = _
      simp only [execMldDataLand, hk, hx, hdst, hres]
      rfl
    have hland : (((s.dropItem y.core x.seq).settlePort y.core).modKern k fun z => z.landLoad n r x.seq x.key).kern? k
        = some (y.landLoad n r x.seq x.key) := by
      rw [State.kern?_modKern_self _ k _ fun z hz => (z.landLoad_kid_regs n r x.seq x.key).1.trans hz]
      exact congrArg (Option.map _) hk
    exact ⟨_, hexec, rfl, _, hland, (y.landLoad_kid_regs n r x.seq x.key).2⟩
  case walks =>
    intro s j r hr v go u
    obtain ⟨ps, heq, hwalk⟩ := s.walked_eq r
    refine ⟨fun hgo => exec_pageWalk_waits hr (by simpa [go] using hgo), fun y hgo hy => ?_, fun e hgo he => ?_⟩
    · obtain ⟨hmem, hlines, hemiss, htlb, hsome, hnone⟩ := State.endWalk_ok (hwalk.trans hy)
      refine ⟨_, exec_pageWalk_ends hr hgo, hmem.trans (by rw [heq]), hlines.trans (by rw [heq]), hemiss, ⟨_, htlb, rfl⟩,
        fun q hq => (hsome q hq).trans (by rw [heq]; rfl), fun hq => (hnone hq).trans (by rw [heq])⟩
    · have hexec := exec_pageWalk_ends hr hgo
      refine ⟨fun n hn => hexec.trans (congrArg _ (State.endWalk_error_engine (hwalk.trans he) hn)), fun hn => ?_⟩
      rw [hexec, State.endWalk_error_port (hwalk.trans he) hn, show (s.walked r).core r.core = s.core r.core by rw [heq]; rfl]
      rfl

end Sys2Proof.Machine
